-- ==== Sys2Proof/Word.lean ====
section
/-! DEFINITION. The word types of the CRC table engine: 32-bit registers and table entries (R10),
8-bit input symbols, table indices, opcodes and fault codes (R6, R18), 40-bit command and response
words (R50, R52). -/

namespace Sys2Proof

/-- A 32-bit register value, operand, response datum or table entry (R6 `W_MAX`, R10). -/
abbrev Word := BitVec 32

/-- An 8-bit input symbol, table index, opcode, status or fault code (R6 `BYTE_BITS`, R18, R50). -/
abbrev Byte := BitVec 8

/-- A 40-bit command word, opcode in bits 39..32 and operand in bits 31..0 (R50). -/
abbrev CmdWord := BitVec 40

/-- A 40-bit response word, status in bits 39..32 and data in bits 31..0 (R52). -/
abbrev RspWord := BitVec 40

end Sys2Proof
end

