-- ==== Sys2Proof/Syntax.lean ====
section
/-! DEFINITION. The syntax of the fifteen commands (R53): the mnemonics, their operand formats (R51),
the instructions with their operands pulled out, and the raw command `MNEMONIC operand` of R58, whose
operand is any 32-bit number. -/

namespace Sys2Proof

/-- The operand formats of R51. -/
inductive Format where
  /-- no operand: `op[31:0]` reserved -/
  | z
  /-- `op[31:0] = imm32`, any value -/
  | i
  /-- `op[31:8]` reserved, `op[7:0] = b8` -/
  | b
  /-- `op[31:2]` reserved, `op[1:0] = n2` -/
  | n
  deriving DecidableEq, Repr

/-- The mnemonics of the opcode map, one per row of R53. -/
inductive Mnemonic where
  | setpoly | setwidth | setinit | gen | preset
  | ldinit | seed | byte | rdcrc
  | rdtbl | rdpoly | rdwidth | rdinit | rdstat | rst
  deriving DecidableEq, Repr

/-- The fifteen mnemonics in the order of R53. -/
def Mnemonic.all : List Mnemonic :=
  [.setpoly, .setwidth, .setinit, .gen, .preset, .ldinit, .seed, .byte, .rdcrc,
   .rdtbl, .rdpoly, .rdwidth, .rdinit, .rdstat, .rst]

/-- The format column of R53. -/
def Mnemonic.format : Mnemonic → Format
  | .setpoly => .i
  | .setwidth => .i
  | .setinit => .i
  | .gen => .z
  | .preset => .n
  | .ldinit => .z
  | .seed => .i
  | .byte => .b
  | .rdcrc => .z
  | .rdtbl => .b
  | .rdpoly => .z
  | .rdwidth => .z
  | .rdinit => .z
  | .rdstat => .z
  | .rst => .z

/-- The instructions: one constructor per row of R53, each carrying exactly the operand bits its
format gives it, so that no term holds a reserved bit. -/
inductive Instr where
  /-- `SETPOLY imm32` (R90) -/
  | setpoly (imm : Word)
  /-- `SETWIDTH imm32` (R91) -/
  | setwidth (imm : Word)
  /-- `SETINIT imm32` (R92) -/
  | setinit (imm : Word)
  /-- `GEN` (R93) -/
  | gen
  /-- `PRESET n2` (R94) -/
  | preset (n : BitVec 2)
  /-- `LDINIT` (R100) -/
  | ldinit
  /-- `SEED imm32` (R101) -/
  | seed (imm : Word)
  /-- `BYTE b8` (R102) -/
  | byte (b : Byte)
  /-- `RDCRC` (R103) -/
  | rdcrc
  /-- `RDTBL b8` (R110) -/
  | rdtbl (b : Byte)
  /-- `RDPOLY` (R111) -/
  | rdpoly
  /-- `RDWIDTH` (R112) -/
  | rdwidth
  /-- `RDINIT` (R113) -/
  | rdinit
  /-- `RDSTAT` (R114) -/
  | rdstat
  /-- `RST` (R115) -/
  | rst
  deriving DecidableEq, Repr

/-- The row of R53 an instruction belongs to. -/
def Instr.mnemonic : Instr → Mnemonic
  | .setpoly _ => .setpoly
  | .setwidth _ => .setwidth
  | .setinit _ => .setinit
  | .gen => .gen
  | .preset _ => .preset
  | .ldinit => .ldinit
  | .seed _ => .seed
  | .byte _ => .byte
  | .rdcrc => .rdcrc
  | .rdtbl _ => .rdtbl
  | .rdpoly => .rdpoly
  | .rdwidth => .rdwidth
  | .rdinit => .rdinit
  | .rdstat => .rdstat
  | .rst => .rst

/-- The operand as the 32-bit number `op`, reserved bits zero (R51). -/
def Instr.operand : Instr → Word
  | .setpoly imm => imm
  | .setwidth imm => imm
  | .setinit imm => imm
  | .gen => 0
  | .preset n => n.setWidth 32
  | .ldinit => 0
  | .seed imm => imm
  | .byte b => b.setWidth 32
  | .rdcrc => 0
  | .rdtbl b => b.setWidth 32
  | .rdpoly => 0
  | .rdwidth => 0
  | .rdinit => 0
  | .rdstat => 0
  | .rst => 0

/-- A command as R58 writes it: a mnemonic and a 32-bit operand that need not respect the format
(`BYTE 0x100`, `GEN 1`). -/
structure RawCommand where
  mnemonic : Mnemonic
  operand : Word
  deriving DecidableEq, Repr

/-- The raw command of an instruction. -/
def Instr.raw (i : Instr) : RawCommand := ⟨i.mnemonic, i.operand⟩

end Sys2Proof
end

