-- ==== Sys2Proof/WellFormed.lean ====
section
/-! DEFINITION. Well-formedness of a command: its operand fits the format of its row (R51, R55). A
raw command can fail the check; every `Instr` meets it, because its operand has the field's width. -/

namespace Sys2Proof

/-- The values a format admits for the 32-bit operand (R51). -/
def Format.admits (f : Format) (op : Word) : Bool :=
  match f with
  | .z => op.toNat == 0
  | .i => true
  | .b => decide (op.toNat < 256)
  | .n => decide (op.toNat < 4)

/-- A raw command is well formed when its format admits its operand (R55). -/
def RawCommand.WellFormed (c : RawCommand) : Bool := c.mnemonic.format.admits c.operand

/-- An instruction is well formed when its raw command is. -/
def Instr.WellFormed (i : Instr) : Bool := i.raw.WellFormed

end Sys2Proof
end

