-- ==== Sys2Proof/Decode.lean ====
section
/-! DEFINITION. Decoding of a 40-bit command word, total and rejecting by name (R50, R51, R53 to R55),
and the encoder (R53, R58). The opcode map is also given row by row as match and mask. -/

namespace Sys2Proof

/-- Bits 39..32 of a command word (R50). -/
def opcodeField (c : CmdWord) : Byte := c.extractLsb' 32 8

/-- Bits 31..0 of a command word (R50). -/
def operandField (c : CmdWord) : Word := c.extractLsb' 0 32

/-- The opcode column of R53. -/
def opcodeOf : Mnemonic → Byte
  | .setpoly => 0x01
  | .setwidth => 0x02
  | .setinit => 0x03
  | .gen => 0x04
  | .preset => 0x05
  | .ldinit => 0x10
  | .seed => 0x11
  | .byte => 0x12
  | .rdcrc => 0x13
  | .rdtbl => 0x20
  | .rdpoly => 0x21
  | .rdwidth => 0x22
  | .rdinit => 0x23
  | .rdstat => 0x24
  | .rst => 0xFF

/-- The row an opcode selects, `none` for the 241 illegal opcodes (R54). -/
def mnemonicOf? (o : Byte) : Option Mnemonic :=
  Mnemonic.all.find? fun m => opcodeOf m == o

/-- The operand bits a format reserves (R51). -/
def reservedMask : Format → Word
  | .z => 0xFFFFFFFF
  | .i => 0x00000000
  | .b => 0xFFFFFF00
  | .n => 0xFFFFFFFC

/-- Reserved operand bits must be zero (R55). -/
def reservedZero (f : Format) (op : Word) : Bool := op &&& reservedMask f == 0

/-- Why a word is not a command (R54, R55). -/
inductive DecodeError where
  /-- the opcode is in no row of R53 (R54) -/
  | illegalOpcode (opcode : Byte)
  /-- the opcode is in R53 but a reserved operand bit is 1 (R55) -/
  | reservedBits (m : Mnemonic)
  deriving DecidableEq, Repr

/-- The operand fields of R51, taken as they stand: nothing is sign-extended, scaled or shifted. -/
def buildInstr (m : Mnemonic) (op : Word) : Instr :=
  match m with
  | .setpoly => .setpoly op
  | .setwidth => .setwidth op
  | .setinit => .setinit op
  | .gen => .gen
  | .preset => .preset (op.extractLsb' 0 2)
  | .ldinit => .ldinit
  | .seed => .seed op
  | .byte => .byte (op.extractLsb' 0 8)
  | .rdcrc => .rdcrc
  | .rdtbl => .rdtbl (op.extractLsb' 0 8)
  | .rdpoly => .rdpoly
  | .rdwidth => .rdwidth
  | .rdinit => .rdinit
  | .rdstat => .rdstat
  | .rst => .rst

/-- `decode(c)` of R127 step 1: one of the fifteen commands with its fields, or illegal. -/
def decode (c : CmdWord) : Except DecodeError Instr :=
  match mnemonicOf? (opcodeField c) with
  | none => .error (.illegalOpcode (opcodeField c))
  | some m =>
    if reservedZero m.format (operandField c) then .ok (buildInstr m (operandField c))
    else .error (.reservedBits m)

/-- The word `{opcode, op}` of a raw command (R50, R58). -/
def encodeRaw (c : RawCommand) : CmdWord := opcodeOf c.mnemonic ++ c.operand

/-- The word of an instruction (R53). -/
def encode (i : Instr) : CmdWord := encodeRaw i.raw

/-- One row of the opcode map of R53: a word `c` selects it when `c &&& mask = pattern`. -/
structure OpcodeRow where
  mnemonic : Mnemonic
  pattern : CmdWord
  mask : CmdWord
  deriving DecidableEq, Repr

/-- The match and mask columns of R53, row by row. -/
def opcodeRows : List OpcodeRow :=
  [⟨.setpoly, 0x0100000000, 0xFF00000000⟩,
   ⟨.setwidth, 0x0200000000, 0xFF00000000⟩,
   ⟨.setinit, 0x0300000000, 0xFF00000000⟩,
   ⟨.gen, 0x0400000000, 0xFFFFFFFFFF⟩,
   ⟨.preset, 0x0500000000, 0xFFFFFFFFFC⟩,
   ⟨.ldinit, 0x1000000000, 0xFFFFFFFFFF⟩,
   ⟨.seed, 0x1100000000, 0xFF00000000⟩,
   ⟨.byte, 0x1200000000, 0xFFFFFFFF00⟩,
   ⟨.rdcrc, 0x1300000000, 0xFFFFFFFFFF⟩,
   ⟨.rdtbl, 0x2000000000, 0xFFFFFFFF00⟩,
   ⟨.rdpoly, 0x2100000000, 0xFFFFFFFFFF⟩,
   ⟨.rdwidth, 0x2200000000, 0xFFFFFFFFFF⟩,
   ⟨.rdinit, 0x2300000000, 0xFFFFFFFFFF⟩,
   ⟨.rdstat, 0x2400000000, 0xFFFFFFFFFF⟩,
   ⟨.rst, 0xFF00000000, 0xFFFFFFFFFF⟩]

/-- The instruction the decoder reads from a word whose low `nbits` bits are `w`, numbered as the
opcode table numbers them. A command is one 40-bit word presented whole on `cmd_data` (R50, R60), so
there is no byte order to apply. -/
def decodeTableWord (nbits w : Nat) : Option Instr :=
  match decode (BitVec.ofNat 40 (w % 2 ^ nbits)) with
  | .ok i => some i
  | .error _ => none

end Sys2Proof
end

