-- ==== Sys2Proof/Config.lean ====
section
/-! DEFINITION. What is fixed for the engine (R6) and the values the spec leaves unspecified, as
constants without a body (R24, R115). -/

namespace Sys2Proof

/-- `TABLE_ENTRIES` (R6): the table has exactly 256 entries, one per byte value (R30). -/
def Config.tableEntries : Nat := 256

/-- `WIDTHS` (R6): the legal values of the checksum width (R121). -/
def Config.legalWidths : List Nat := [8, 16, 32]

/-- FREE VALUE (DESIGN CHOICE, safe: assumption 4). What entry `i` of `TABLE` holds after
the `n`-th reset of the run: "TABLE, CRC <- unspecified" (R115, R24). It has no body,
so nothing can be proved of it. -/
opaque Config.freeEntry : Nat → Byte → Word

/-- FREE VALUE (DESIGN CHOICE, safe: assumption 4). What `CRC` holds after the `n`-th
reset of the run (R115, R24). -/
opaque Config.freeCrc : Nat → Word

end Sys2Proof
end

