-- ==== Sys2Proof/Machine/Datapath.lean ====
section
/-! DEFINITION. The datapath functions over naturals, as the spec writes them (R70 to R76): masking,
table generation, the byte step, its folds, one-shot and incremental update. They are total; the
spec gives them for the widths 8, 16, 32 only (R81; DESIGN CHOICE, safe: assumption 7). -/

namespace Sys2Proof.Machine

/-- `Mask(w, v) = v mod 2^w` (R70). -/
def mask (w v : Nat) : Nat := v % 2 ^ w

/-- One of the 8 iterations of R71: the top bit is tested before the shift, nothing is masked. -/
def divStep (p w a : Nat) : Nat :=
  if a.testBit (w - 1) then (a <<< 1) ^^^ p else a <<< 1

/-- `n` iterations of `divStep`, from the accumulator `a`. -/
def divSteps (p w : Nat) : Nat → Nat → Nat
  | 0, a => a
  | n + 1, a => divSteps p w n (divStep p w a)

/-- `TableEntry(p, w, i)` (R71). -/
def tableEntry (p w : Nat) (i : Byte) : Nat :=
  mask w (divSteps p w 8 (i.toNat <<< (w - 8)))

/-- `GenTable(p, w)` (R72), a function from bytes to naturals. -/
def genTable (p w : Nat) : Byte → Nat := fun i => tableEntry p w i

/-- `RawStep(T, w, a, b)`, KSC's loop body (R73). -/
def rawStep (T : Byte → Nat) (w a : Nat) (b : Byte) : Nat :=
  (a <<< 8) ^^^ T (BitVec.ofNat 8 (((a >>> (w - 8)) ^^^ b.toNat) &&& 0xFF))

/-- `Step(T, w, r, b)`, the masked form the hardware computes (R73). -/
def crcStep (T : Byte → Nat) (w r : Nat) (b : Byte) : Nat := mask w (rawStep T w r b)

/-- `RawFold(T, w, a, data)`: `RawStep` once per byte, in order, never masked (R74). -/
def rawFold (T : Byte → Nat) (w : Nat) : Nat → List Byte → Nat
  | a, [] => a
  | a, b :: rest => rawFold T w (rawStep T w a b) rest

/-- `Fold(T, w, r, data)`: `Step` once per byte from a masked start (R74). -/
def maskedFold (T : Byte → Nat) (w : Nat) : Nat → List Byte → Nat
  | r, [] => mask w r
  | r, b :: rest => maskedFold T w (crcStep T w (mask w r) b) rest

/-- A configuration `(p, w, v)`: polynomial, width and initial value (R75). -/
structure CrcConfig where
  poly : Nat
  width : Nat
  init : Nat
  deriving DecidableEq, Repr

/-- `IncUpdate(cfg, data, prior)` (R76). -/
def incUpdate (cfg : CrcConfig) (data : List Byte) (prior : Nat) : Nat :=
  mask cfg.width (rawFold (genTable cfg.poly cfg.width) cfg.width prior data)

/-- `Update(cfg, data)` (R75). -/
def update (cfg : CrcConfig) (data : List Byte) : Nat :=
  mask cfg.width (rawFold (genTable cfg.poly cfg.width) cfg.width cfg.init data)

/-- The bit-serial division of R80 (e): 8 times, keep the top bit, shift left by one within `w` bits,
and exclusive-or the polynomial in if the bit was 1. -/
def bitSerialStep (p w r : Nat) : Nat :=
  if r.testBit (w - 1) then mask w (r <<< 1) ^^^ mask w p else mask w (r <<< 1)

/-- `n` bit-serial iterations from `r`. -/
def bitSerial (p w : Nat) : Nat → Nat → Nat
  | 0, r => r
  | n + 1, r => bitSerial p w n (bitSerialStep p w r)

end Sys2Proof.Machine
end

