-- ==== Sys2Proof/Machine/State.lean ====
section
/-! DEFINITION. The state of one CRC table engine (R10) as plain data, with the model's own port
fields, the machine right after reset (R24), and the reasons a step could stop. -/

namespace Sys2Proof.Machine

/-- The five faults (R120). -/
inductive FaultKind where
  /-- `GEN` found `WIDTH` not in 8, 16, 32 (R121) -/
  | invalidConfig
  /-- a command that needs the table ran while `TV = 0` (R122) -/
  | tableNotValid
  /-- the word is not a command (R124) -/
  | illegalCommand
  /-- a configuration command ran while `TV = 1` (R125) -/
  | configLocked
  /-- `BYTE` or `RDCRC` ran while `RV = 0` (R126) -/
  | notSeeded
  deriving DecidableEq, Repr

/-- The status of a response: `OK` or one of the five faults (R52, R56); exactly six values (U14). -/
inductive Status where
  | ok
  | error (e : FaultKind)
  deriving DecidableEq, Repr

/-- The three lifecycle states of R20. -/
inductive Lifecycle where
  | unconfigured
  | ready
  | faulted
  deriving DecidableEq, Repr

/-- What the host does at the ports, one event a step (R60, R140, R142). -/
inductive PortEvent where
  /-- `cmd_valid = 1` with this word on `cmd_data` -/
  | command (c : CmdWord)
  /-- `rst_n` falls; `inFlight` is a command issued before and not yet answered, if there is one -/
  | resetLow (inFlight : Option CmdWord)
  /-- the first clock edge after `rst_n` returns to 1 -/
  | resetHigh
  deriving DecidableEq, Repr

/-- The lookup table: exactly 256 entries of 32 bits (R30). -/
structure Table where
  entries : List Word
  size : entries.length = Config.tableEntries
  deriving DecidableEq, Repr

/-- A table with every entry zero: the value the model names for `TABLE` at reset (DESIGN
CHOICE, unsafe: assumption 3). -/
def Table.zero : Table := ⟨List.replicate Config.tableEntries 0, List.length_replicate⟩

/-- The complete architectural state of R10: what the block holds from one command to the next. The
command stream and the history of commands are no part of it, and no count of bytes or time is (R22). -/
structure Engine where
  /-- `POLY` (R12) -/
  poly : Word
  /-- `WIDTH` (R13) -/
  width : Word
  /-- `INIT` (R14) -/
  init : Word
  /-- `TABLE[0..255]` (R30) -/
  table : Table
  /-- `TV`, table valid (R17) -/
  tv : Bool
  /-- `CRC` (R15) -/
  crc : Word
  /-- `RV`, register valid (R16) -/
  rv : Bool
  /-- `FAULT` (R18) -/
  fault : Byte
  deriving DecidableEq, Repr

/-- The block in its surroundings, as the host's interface needs it: the step there takes a state only,
so what the host does at the ports, an input of the block's step (`portEvent`, R22), stands beside the
architectural state and not in it (DESIGN CHOICE, safe: assumption 1). -/
structure State extends Engine where
  /-- `rst_n` is low: the block is held in reset (R140; DEDUCED: assumption 6) -/
  inReset : Bool
  /-- MODEL'S OWN (DESIGN CHOICE, safe: assumption 1): what the host will do at the ports,
  next event first -/
  inputs : List PortEvent
  /-- MODEL'S OWN (DESIGN CHOICE, safe: assumption 2): the responses produced, in issue order (R60) -/
  responses : List RspWord
  /-- MODEL'S OWN (DESIGN CHOICE, safe: assumption 5): how many free values the run has drawn -/
  freeCount : Nat
  deriving DecidableEq, Repr

/-- The block right after reset (R24, R140). `TABLE` and `CRC`, which R24 leaves unspecified, hold the
values named in assumption 3 (DESIGN CHOICE, unsafe); no input is waiting and nothing has been
answered. -/
def State.reset : State where
  poly := 0
  width := 0
  init := 0
  table := Table.zero
  tv := false
  crc := 0
  rv := false
  fault := 0
  inReset := false
  inputs := []
  responses := []
  freeCount := 0

/-- Reasons the machine could stop with a fault: there are none. A fault of this hardware is a state
(`FAULT`, R123) and every command is answered in every state (R134), so nothing raises one. The empty
type says so; that is safe, for no behaviour of the block is cut short. -/
inductive Fault where
  deriving DecidableEq, Repr

/-- Reasons the model could refuse an instruction. -/
inductive Refusal where
  /-- An instruction whose meaning is not written yet, raised by `exec`'s arm for it; safe, since
  nothing is then claimed of the instruction. Every arm has its meaning, so no arm raises it. -/
  | notModelled (mnemonic : String)
  deriving DecidableEq, Repr

end Sys2Proof.Machine
end

