-- ==== Sys2Proof/Machine/Operands.lean ====
section
/-! DEFINITION. What the operands name: an entry of `TABLE` for a byte operand (R30, R51), an entry of
`PRESET_ROM` for a preset index (R33), the width `W` of the running register (R13). -/

namespace Sys2Proof.Machine

/-- `TABLE[i]`, one whole entry; every 8-bit index is in range (R30). -/
def readEntry (t : Table) (i : Byte) : Word :=
  t.entries[i.toNat]'(t.size.symm ▸ i.isLt)

/-- The table whose entry `i` is `f i`: all 256 entries written in one step (R31). -/
def tableOf (f : Byte → Word) : Table where
  entries := (List.range Config.tableEntries).map fun k => f (BitVec.ofNat 8 k)
  size := by simp

/-- The table memory as the function from bytes to naturals the datapath works on. -/
def tableNat (t : Table) : Byte → Nat := fun i => (readEntry t i).toNat

/-- `PRESET_ROM[n]` as the triple (polynomial, bitWidth, initialValue) of R33. -/
def presetRom (n : BitVec 2) : Word × Word × Word :=
  if n = 0 then (0x04C11DB7, 32, 0xFFFFFFFF)
  else if n = 1 then (0x1EDC6F41, 32, 0xFFFFFFFF)
  else if n = 2 then (0x1021, 16, 0xFFFF)
  else (0x07, 8, 0xFF)

/-- `W`, the value of `WIDTH` (R13). -/
def State.w (s : State) : Nat := s.width.toNat

/-- The configuration `(POLY, WIDTH, INIT)` the registers hold (R104). -/
def State.config (s : State) : CrcConfig := ⟨s.poly.toNat, s.width.toNat, s.init.toNat⟩

end Sys2Proof.Machine
end

