-- ==== Sys2Proof/Machine/Flags.lean ====
section
/-! DEFINITION. The flags and the fault register: codes (R56), the lifecycle state (R20), the `STATUS`
view (R19), the checks a command makes before it executes (R127 steps 4 to 6) and the `fault_o` and
`cmd_ready` pins (R130, R140). There are no arithmetic condition codes (R17). -/

namespace Sys2Proof.Machine

/-- The code of a fault (R56, R120). -/
def faultCode : FaultKind → Byte
  | .invalidConfig => 1
  | .tableNotValid => 2
  | .illegalCommand => 3
  | .configLocked => 4
  | .notSeeded => 5

/-- The `status` byte of a response (R52, R56). -/
def statusCode : Status → Byte
  | .ok => 0
  | .error e => faultCode e

/-- The lifecycle state, a function of `FAULT` and `TV` (R20). -/
def lifecycle (s : State) : Lifecycle :=
  if s.fault ≠ 0#8 then .faulted else if s.tv then .ready else .unconfigured

/-- `STATUS = {16'b0, FAULT[7:0], 6'b0, RV, TV}` (R19, R114). -/
def statusView (s : State) : Word :=
  0#16 ++ s.fault ++ 0#6 ++ BitVec.ofBool s.rv ++ BitVec.ofBool s.tv

/-- `fault_o`, the level `FAULT != 0` (R130). -/
def faultPin (s : State) : Bool := s.fault != 0#8

/-- `cmd_ready`: 0 while the block is held in reset (R140); a command presented between two steps is
accepted otherwise (DESIGN CHOICE, safe: assumption 2). -/
def cmdReady (s : State) : Bool := !s.inReset

/-- `WIDTH` is 8, 16 or 32 (R121). -/
def legalWidth (s : State) : Bool := Config.legalWidths.contains s.w

/-- No check: the command executes in Unconfigured and in Ready (R127). -/
def noCheck (_ : State) : Option FaultKind := none

/-- R127 step 4 for the configuration commands: `E_CONFIG_LOCKED` while `TV = 1` (R125). -/
def lockedCheck (s : State) : Option FaultKind :=
  if s.tv then some .configLocked else none

/-- R127 step 4 for the stream commands and `RDTBL`: `E_TABLE_NOT_VALID` while `TV = 0` (R122). -/
def tableCheck (s : State) : Option FaultKind :=
  if s.tv then none else some .tableNotValid

/-- R127 steps 4 and 5 for `BYTE` and `RDCRC`: then `E_NOT_SEEDED` while `RV = 0` (R126). -/
def seededCheck (s : State) : Option FaultKind :=
  (tableCheck s).or (if s.rv then none else some .notSeeded)

/-- R127 steps 4 and 6 for `GEN`: then `E_INVALID_CONFIG` unless `WIDTH` is legal (R121). -/
def generateCheck (s : State) : Option FaultKind :=
  (lockedCheck s).or (if legalWidth s then none else some .invalidConfig)

end Sys2Proof.Machine
end

