-- ==== Sys2Proof/Machine/Ops.lean ====
section
/-! DEFINITION. The named operations on the state: responding (R52), TAKING A FAULT (`raise`, R123)
and the only way back from one, reset (R115, R129, R141), the echo of the Faulted state (R128), the
execution skeleton of R127, and the writes of the registers, the table and the ports. -/

namespace Sys2Proof.Machine

/-- Emit the response word `{code, data}` (R52), after those already produced (R60). -/
def respondCode (code : Byte) (data : Word) (s : State) : State :=
  { s with responses := s.responses ++ [code ++ data] }

/-- `respond(status, data)` (R52). -/
def respond (st : Status) (data : Word) (s : State) : State :=
  respondCode (statusCode st) data s

/-- `FAULT <- E`. -/
def setFault (e : FaultKind) (s : State) : State := { s with fault := faultCode e }

/-- FAULT ENTRY, `raise E` (R123): latch the code, change nothing else, respond with it. -/
def raise (e : FaultKind) (s : State) : State := respond (.error e) 0 (setFault e s)

/-- What a Faulted block answers: the latched code, nothing changes (R128). -/
def echoFault (s : State) : State := respondCode s.fault 0 s

/-- The execution skeleton of R127, steps 2 and 4 to 7: the echo while Faulted, else the first check
that fails, else the command's effect and `respond(OK, data)` with data read from the state before. -/
def answer (check : State → Option FaultKind) (effect : State → State) (data : State → Word)
    (s : State) : Host.Outcome State Fault Refusal :=
  if s.fault ≠ 0#8 then .next (echoFault s)
  else
    match check s with
    | some e => .next (raise e s)
    | none => .next (respond .ok (data s) (effect s))

/-- R127 steps 2 and 3 for a word that is no command: the echo while Faulted, else
`E_ILLEGAL_COMMAND` (R124). -/
def illegalCommand (s : State) : State :=
  if s.fault ≠ 0#8 then echoFault s else raise .illegalCommand s

/-- The data of a response that carries none (R52). -/
def noData (_ : State) : Word := 0

/-- The datum `RDPOLY` answers: `POLY` (R111). -/
def readPoly (s : State) : Word := s.poly

/-- The datum `RDWIDTH` answers: `WIDTH` (R112). -/
def readWidth (s : State) : Word := s.width

/-- The datum `RDINIT` answers: `INIT` (R113). -/
def readInit (s : State) : Word := s.init

/-- The datum `RDCRC` answers: `CRC` (R103). -/
def readCrc (s : State) : Word := s.crc

/-- The effect of a command that changes no state (R40). -/
def noEffect (s : State) : State := s

/-- `POLY <- v` (R12). -/
def setPoly (v : Word) (s : State) : State := { s with poly := v }

/-- `WIDTH <- v` (R13). -/
def setWidth (v : Word) (s : State) : State := { s with width := v }

/-- `INIT <- v` (R14). -/
def setInit (v : Word) (s : State) : State := { s with init := v }

/-- `GenTable(POLY, WIDTH)` in the table's 32-bit entries (R30, R72). -/
def generatedTable (p w : Word) : Table :=
  tableOf fun i => BitVec.ofNat 32 (tableEntry p.toNat w.toNat i)

/-- Write all 256 entries from `POLY` and `WIDTH` and set `TV`, as one step (R93). -/
def generate (s : State) : State :=
  { s with table := generatedTable s.poly s.width, tv := true }

/-- `(POLY, WIDTH, INIT) <- PRESET_ROM[n]`, then generate (R94). -/
def loadPreset (n : BitVec 2) (s : State) : State :=
  generate (setInit (presetRom n).2.2 (setWidth (presetRom n).2.1 (setPoly (presetRom n).1 s)))

/-- `CRC <- v` (R15). -/
def setCrc (v : Word) (s : State) : State := { s with crc := v }

/-- `CRC <- Mask(W, v)`, `RV <- 1` (R100, R101). -/
def seedCrc (v : Word) (s : State) : State :=
  { setCrc (BitVec.ofNat 32 (mask s.w v.toNat)) s with rv := true }

/-- `CRC <- Step(TABLE, W, CRC, b)` (R73, R102). -/
def stepCrc (b : Byte) (s : State) : State :=
  setCrc (BitVec.ofNat 32 (crcStep (tableNat s.table) s.w s.crc.toNat b)) s

/-- Everything to the reset values of R24, by `RST` or the reset pin (R115, R141). `TABLE` and `CRC`
take free values (DESIGN CHOICE, safe: assumption 4). The host's side of the ports is not the block's
to reset. -/
def enterReset (s : State) : State :=
  { s with
    poly := 0, width := 0, init := 0, tv := false, rv := false, fault := 0
    table := tableOf (Config.freeEntry s.freeCount)
    crc := Config.freeCrc s.freeCount
    freeCount := s.freeCount + 1 }

/-- The level of the reset pin as the block sees it (R140). -/
def holdReset (held : Bool) (s : State) : State := { s with inReset := held }

/-- The host's next event has been taken. -/
def setInputs (rest : List PortEvent) (s : State) : State := { s with inputs := rest }

/-- The host presents `c` as its next command, to a block that is not held in reset. -/
def present (c : CmdWord) (s : State) : State :=
  holdReset false (setInputs (.command c :: s.inputs) s)

end Sys2Proof.Machine
end

