-- ==== Sys2Proof/Machine/Configure.lean ====
section
/-! DEFINITION. The configuration commands `SETPOLY`, `SETWIDTH`, `SETINIT`, `GEN`, `PRESET` (R90 to
R94). -/

namespace Sys2Proof.Machine

/-- `SETPOLY imm32` (R90). -/
def execSetpoly (imm : Word) (s : State) : Host.Outcome State Fault Refusal :=
  answer lockedCheck (setPoly imm) noData s

/-- `SETWIDTH imm32`: stored without a check of the value (R91). -/
def execSetwidth (imm : Word) (s : State) : Host.Outcome State Fault Refusal :=
  answer lockedCheck (setWidth imm) noData s

/-- `SETINIT imm32` (R92). -/
def execSetinit (imm : Word) (s : State) : Host.Outcome State Fault Refusal :=
  answer lockedCheck (setInit imm) noData s

/-- `GEN` (R93). -/
def execGen (s : State) : Host.Outcome State Fault Refusal :=
  answer generateCheck generate noData s

/-- `PRESET n2` (R94). -/
def execPreset (n : BitVec 2) (s : State) : Host.Outcome State Fault Refusal :=
  answer lockedCheck (loadPreset n) noData s

end Sys2Proof.Machine
end

