-- ==== Sys2Proof/Machine/Observe.lean ====
section
/-! DEFINITION. The observation and control commands `RDTBL`, `RDPOLY`, `RDWIDTH`, `RDINIT`, `RDSTAT`,
`RST` (R110 to R115). `RDSTAT` and `RST` execute in the Faulted state too (R128). -/

namespace Sys2Proof.Machine

/-- `RDTBL b8` (R110). -/
def execRdtbl (b : Byte) (s : State) : Host.Outcome State Fault Refusal :=
  answer tableCheck noEffect (fun s => readEntry s.table b) s

/-- `RDPOLY` (R111). -/
def execRdpoly (s : State) : Host.Outcome State Fault Refusal :=
  answer noCheck noEffect readPoly s

/-- `RDWIDTH` (R112). -/
def execRdwidth (s : State) : Host.Outcome State Fault Refusal :=
  answer noCheck noEffect readWidth s

/-- `RDINIT` (R113). -/
def execRdinit (s : State) : Host.Outcome State Fault Refusal :=
  answer noCheck noEffect readInit s

/-- `RDSTAT` (R114). -/
def execRdstat (s : State) : Host.Outcome State Fault Refusal :=
  .next (respond .ok (statusView s) s)

/-- `RST` (R115). -/
def execRst (s : State) : Host.Outcome State Fault Refusal :=
  .next (respond .ok 0 (enterReset s))

end Sys2Proof.Machine
end

