-- ==== Sys2Proof/Machine/Stream.lean ====
section
/-! DEFINITION. The streaming commands `LDINIT`, `SEED`, `BYTE`, `RDCRC` (R100 to R103). -/

namespace Sys2Proof.Machine

/-- `LDINIT` (R100). -/
def execLdinit (s : State) : Host.Outcome State Fault Refusal :=
  answer tableCheck (seedCrc s.init) noData s

/-- `SEED imm32` (R101). -/
def execSeed (imm : Word) (s : State) : Host.Outcome State Fault Refusal :=
  answer tableCheck (seedCrc imm) noData s

/-- `BYTE b8` (R102). -/
def execByte (b : Byte) (s : State) : Host.Outcome State Fault Refusal :=
  answer seededCheck (stepCrc b) noData s

/-- `RDCRC` (R103). -/
def execRdcrc (s : State) : Host.Outcome State Fault Refusal :=
  answer seededCheck noEffect readCrc s

end Sys2Proof.Machine
end

