-- ==== Sys2Proof/Machine/Dispatch.lean ====
section
/-! DEFINITION. One arm per constructor of `Instr` (R53), each one direct call of its meaning. -/

namespace Sys2Proof.Machine

def exec (i : Instr) (s : State) : Host.Outcome State Fault Refusal :=
  match i with
  | .setpoly imm => Sys2Proof.Machine.execSetpoly imm s
  | .setwidth imm => Sys2Proof.Machine.execSetwidth imm s
  | .setinit imm => Sys2Proof.Machine.execSetinit imm s
  | .gen => Sys2Proof.Machine.execGen s
  | .preset n => Sys2Proof.Machine.execPreset n s
  | .ldinit => Sys2Proof.Machine.execLdinit s
  | .seed imm => Sys2Proof.Machine.execSeed imm s
  | .byte b => Sys2Proof.Machine.execByte b s
  | .rdcrc => Sys2Proof.Machine.execRdcrc s
  | .rdtbl b => Sys2Proof.Machine.execRdtbl b s
  | .rdpoly => Sys2Proof.Machine.execRdpoly s
  | .rdwidth => Sys2Proof.Machine.execRdwidth s
  | .rdinit => Sys2Proof.Machine.execRdinit s
  | .rdstat => Sys2Proof.Machine.execRdstat s
  | .rst => Sys2Proof.Machine.execRst s

end Sys2Proof.Machine
end

