-- ==== Sys2Proof/Machine/Ports.lean ====
section
/-! DEFINITION. The ports (R60): what one event of the host does to the block. A command word is
decoded and executed whole (R41, R127), a word that is no command faults (R124), the reset pin resets
(R140, R142). -/

namespace Sys2Proof.Machine

/-- Execution of one command word (R127). -/
def runWord (c : CmdWord) (s : State) : Host.Outcome State Fault Refusal :=
  match decode c with
  | .ok i => exec i s
  | .error _ => .next (illegalCommand s)

/-- `rst_n` falls: the block is in reset. A command in flight is abandoned: it gets no response,
whatever it had done (R140, R142). -/
def assertReset (s : State) : State := holdReset true (enterReset s)

/-- The block leaves reset (R140). -/
def releaseReset (s : State) : State := holdReset false s

/-- THE STEP OF THE BLOCK, with the host's event as its input (R22): one event at the ports. It takes
nothing from `State.inputs`. A command presented while `cmd_ready = 0` is not issued (R60, R140). -/
def portEvent (e : PortEvent) (s : State) : Host.Outcome State Fault Refusal :=
  match e with
  | .command c => if cmdReady s then runWord c s else .next s
  | .resetLow _ => .next (assertReset s)
  | .resetHigh => .next (releaseReset s)

/-- The same step of the engine alone (R10, R22): nothing of the host's stream and no history of
answers stands beside it. `held` is the level of the reset pin, `drawn` the number of free values. -/
def engineStep (e : PortEvent) (b : Engine) (held : Bool) (drawn : Nat) :
    Host.Outcome State Fault Refusal :=
  portEvent e { toEngine := b, inReset := held, inputs := [], responses := [], freeCount := drawn }

/-- The steps of a command stream given as an input, in the order presented (R22, R41). -/
def feed : List PortEvent → State → Host.Outcome State Fault Refusal
  | [], s => .next s
  | e :: rest, s =>
    match portEvent e s with
    | .next t => feed rest t
    | .fault r => .fault r
    | .refused r => .refused r

/-- The step as the host's interface asks for it, of a state only (assumption 1): the host's next event
is taken and acts; with none, the block is idle and holds its state
(R135). -/
def nextEvent (s : State) : Host.Outcome State Fault Refusal :=
  match s.inputs with
  | [] => .next s
  | e :: rest => portEvent e (setInputs rest s)

/-- `s` with the command whose low `nbits` bits are `w` presented next. -/
def presentTableWord (s : State) (nbits w : Nat) : State :=
  present (BitVec.ofNat 40 (w % 2 ^ nbits)) s

end Sys2Proof.Machine
end

