-- ==== Sys2Proof/Machine/Assembler.lean ====
section
/-! DEFINITION. The textual notation of commands and the pseudo-commands (R58, R59; DESIGN
CHOICE, safe: assumption 9): an assembler from one line of text to the command word and the
expected response, the ten-digit hexadecimal writing of a word, and the expansions of `CONFIG`, `BYTES`,
`UPDATE` and `INCUPDATE`. -/

namespace Sys2Proof.Machine

/-- The mnemonic as text, in capitals (R53, R58). -/
def mnemonicText : Mnemonic → List Char
  | .setpoly => "SETPOLY".toList
  | .setwidth => "SETWIDTH".toList
  | .setinit => "SETINIT".toList
  | .gen => "GEN".toList
  | .preset => "PRESET".toList
  | .ldinit => "LDINIT".toList
  | .seed => "SEED".toList
  | .byte => "BYTE".toList
  | .rdcrc => "RDCRC".toList
  | .rdtbl => "RDTBL".toList
  | .rdpoly => "RDPOLY".toList
  | .rdwidth => "RDWIDTH".toList
  | .rdinit => "RDINIT".toList
  | .rdstat => "RDSTAT".toList
  | .rst => "RST".toList

/-- The status names of R56 with their codes. -/
def statusNames : List (List Char × Byte) :=
  [("OK".toList, 0), ("E_INVALID_CONFIG".toList, 1), ("E_TABLE_NOT_VALID".toList, 2),
   ("E_ILLEGAL_COMMAND".toList, 3), ("E_CONFIG_LOCKED".toList, 4), ("E_NOT_SEEDED".toList, 5)]

/-- The sixteen hexadecimal digits in the order of their values. -/
def hexNumerals : List Char := "0123456789ABCDEF".toList

/-- The value of a digit of a base of at most sixteen, in capitals or not. -/
def digitValue? (base : Nat) (c : Char) : Option Nat := (hexNumerals.take base).idxOf? c.toUpper

/-- The number a row of digits writes, most significant first. -/
def digits? (base : Nat) (cs : List Char) : Option Nat :=
  cs.foldlM (fun acc c => (digitValue? base c).map (base * acc + ·)) 0

/-- A decimal or `0x` hexadecimal numeral (R58). -/
def numeral? : List Char → Option Nat
  | [] => none
  | ['0', 'x'] => none
  | '0' :: 'x' :: rest => digits? 16 rest
  | cs => digits? 10 cs

/-- A 32-bit numeral. -/
def wordNumeral? (cs : List Char) : Option Word :=
  match numeral? cs with
  | some v => if v < 2 ^ 32 then some (BitVec.ofNat 32 v) else none
  | none => none

/-- The words of a line, split at spaces; `;` starts a comment (R58). -/
def lineWords (line : List Char) : List (List Char) :=
  ((line.takeWhile (· != ';')).splitOn ' ').filter (!·.isEmpty)

/-- The expected response after `->`, as `status data` (R58). -/
def expected? : List (List Char) → Option (Option RspWord)
  | [] => some none
  | [arrow, st, d] =>
    if arrow = "->".toList then
      match statusNames.find? (fun p => p.1 == st), wordNumeral? d with
      | some p, some v => some (some (p.2 ++ v))
      | _, _ => none
    else none
  | _ => none

/-- One line: the raw command and, where it is written, the expected response. Format Z takes no
operand, the other formats take one (R58). The operand need not respect its format. -/
def parseLine (line : List Char) : Option (RawCommand × Option RspWord) :=
  match lineWords line with
  | [] => none
  | name :: rest =>
    match Mnemonic.all.find? (fun m => mnemonicText m == name) with
    | none => none
    | some m =>
      match m.format, rest with
      | .z, _ => (expected? rest).map fun r => (⟨m, 0⟩, r)
      | _, [] => none
      | _, operand :: rest' =>
        match wordNumeral? operand, expected? rest' with
        | some v, some r => some (⟨m, v⟩, r)
        | _, _ => none

/-- The word of a line (R58). -/
def assemble (line : List Char) : Option CmdWord :=
  (parseLine line).map fun p => encodeRaw p.1

/-- The last `n` hexadecimal digits of a number, most significant first. -/
def hexDigits : Nat → Nat → List Char
  | 0, _ => []
  | n + 1, v => hexDigits n (v / 16) ++ [hexNumerals.getD (v % 16) '0']

/-- A command or response word as ten hexadecimal digits (R58). -/
def tenDigits (w : BitVec 40) : List Char := hexDigits 10 w.toNat

/-- `CONFIG p, w, v` (R59). -/
def configCommands (p w v : Word) : List Instr := [.setpoly p, .setwidth w, .setinit v, .gen]

/-- `BYTES b0 ... bk` (R59), in the order of the buffer (R35). -/
def bytesCommands (data : List Byte) : List Instr := data.map Instr.byte

/-- `BYTES "text"` (R59): the ASCII code of each character, left to right, no terminator. For a
character outside ASCII the spec gives no byte; the low 8 bits of its code point are the model's
(DESIGN CHOICE, safe: assumption 9). -/
def textCommands (text : List Char) : List Instr :=
  bytesCommands (text.map fun c => BitVec.ofNat 8 c.toNat)

/-- `UPDATE b0 ... bk` (R59). -/
def updateCommands (data : List Byte) : List Instr :=
  .ldinit :: bytesCommands data ++ [.rdcrc]

/-- `INCUPDATE r; b0 ... bk` (R59). -/
def incUpdateCommands (r : Word) (data : List Byte) : List Instr :=
  .seed r :: bytesCommands data ++ [.rdcrc]

end Sys2Proof.Machine
end

