-- ==== Sys2Proof/Safety.lean ====
section
/-! DEFINITION. The terms the claims are stated in: the invariant of R21, agreement of two states on
everything observable (R24), the host's commands as port events, and sequences of commands. -/

namespace Sys2Proof.Machine

/-- R21 (a): while `TV = 1`, `WIDTH` is 8, 16 or 32. -/
def State.WidthLegal (s : State) : Prop := s.tv = true → s.w = 8 ∨ s.w = 16 ∨ s.w = 32

/-- R21 (b): while `TV = 1`, every entry of `TABLE` is the one R71 gives for `POLY` and `WIDTH`. -/
def State.TableGenerated (s : State) : Prop :=
  s.tv = true → ∀ i, tableNat s.table i = tableEntry s.poly.toNat s.w i

/-- R21 (c): while `RV = 1`, `TV = 1` and `CRC < 2^WIDTH`. -/
def State.RegisterSeeded (s : State) : Prop :=
  s.rv = true → s.tv = true ∧ s.crc.toNat < 2 ^ s.w

/-- R21 (d): `FAULT` is one of 0 to 5. -/
def State.FaultInRange (s : State) : Prop := s.fault.toNat ≤ 5

/-- While the block is held in reset its registers have the values of R24 already. R140 gives them on
leaving reset only; that they stand from the fall of the pin on is the model's (DESIGN CHOICE, unsafe:
assumption 6). -/
def State.HeldAtReset (s : State) : Prop :=
  s.inReset = true →
    s.poly = 0#32 ∧ s.width = 0#32 ∧ s.init = 0#32 ∧ s.tv = false ∧ s.rv = false ∧ s.fault = 0#8

/-- The invariant of R21 (a) to (d), with the model's own `HeldAtReset` (assumption 6). -/
structure State.Inv (s : State) : Prop where
  widthLegal : s.WidthLegal
  tableGenerated : s.TableGenerated
  registerSeeded : s.RegisterSeeded
  faultInRange : s.FaultInRange
  heldAtReset : s.HeldAtReset

/-- Two states agree on all that R24 does not leave unspecified: `TABLE` counts only while `TV = 1`
and `CRC` only while `RV = 1`. The model's own counter of free values does not count. -/
structure State.Agree (s t : State) : Prop where
  poly : s.poly = t.poly
  width : s.width = t.width
  init : s.init = t.init
  tv : s.tv = t.tv
  rv : s.rv = t.rv
  fault : s.fault = t.fault
  inReset : s.inReset = t.inReset
  inputs : s.inputs = t.inputs
  responses : s.responses = t.responses
  table : s.tv = true → s.table = t.table
  crc : s.rv = true → s.crc = t.crc

/-- The commands a host presents, as events at the port. -/
def commandEvents (is : List Instr) : List PortEvent := is.map fun i => .command (encode i)

/-- Commands executed one after the other, in order, each whole before the next (R41). -/
def execAll : List Instr → State → Host.Outcome State Fault Refusal
  | [], s => .next s
  | i :: rest, s =>
    match exec i s with
    | .next t => execAll rest t
    | .fault r => .fault r
    | .refused r => .refused r

/-- The read commands (R52). -/
def isRead : Instr → Bool
  | .rdcrc | .rdtbl _ | .rdpoly | .rdwidth | .rdinit | .rdstat => true
  | .setpoly _ | .setwidth _ | .setinit _ | .gen | .preset _ | .ldinit | .seed _ | .byte _
  | .rst => false

/-- The configuration commands (R125). -/
def isConfig : Instr → Bool
  | .setpoly _ | .setwidth _ | .setinit _ | .gen | .preset _ => true
  | .ldinit | .seed _ | .byte _ | .rdcrc | .rdtbl _ | .rdpoly | .rdwidth | .rdinit | .rdstat
  | .rst => false

/-- The commands that need the table (R122). -/
def needsTable : Instr → Bool
  | .ldinit | .seed _ | .byte _ | .rdcrc | .rdtbl _ => true
  | .setpoly _ | .setwidth _ | .setinit _ | .gen | .preset _ | .rdpoly | .rdwidth | .rdinit
  | .rdstat | .rst => false

/-- The commands that need the register seeded (R126). -/
def needsSeed : Instr → Bool
  | .byte _ | .rdcrc => true
  | .setpoly _ | .setwidth _ | .setinit _ | .gen | .preset _ | .ldinit | .seed _ | .rdtbl _
  | .rdpoly | .rdwidth | .rdinit | .rdstat | .rst => false

/-- The next step executes the command `i`: it is the word the host presents to a block that is not
held in reset. -/
def nextIs (s : State) (i : Instr) : Prop :=
  s.inReset = false ∧ ∃ c rest, s.inputs = .command c :: rest ∧ decode c = .ok i

/-- The next step resets the block: a well-formed `RST` or the reset pin (R20, R129). -/
def nextResets (s : State) : Prop :=
  nextIs s .rst ∨ ∃ inFlight rest, s.inputs = .resetLow inFlight :: rest

/-- A legal width (R121). -/
def LegalWidth (w : Nat) : Prop := w = 8 ∨ w = 16 ∨ w = 32

/-- The status byte of a response word (R52). -/
def statusField (w : RspWord) : Byte := w.extractLsb' 32 8

/-- The data of a response word (R52). -/
def dataField (w : RspWord) : Word := w.extractLsb' 0 32

end Sys2Proof.Machine
end

