-- ==== Sys2Proof/Certificates/Slice0/Obligations.lean ====
section
/-! DEFINITION. The statements for the provers, from the spec's numbered rules. Each docstring names
the rule it formalises. States are arbitrary; where a statement needs the invariant of R21, it has it
as a premise. That the host's commands stand in `State.inputs` and the answers in `State.responses` is
the model's form of the ports (assumptions 1 and 2), not a rule of the spec. -/

open Sys2Proof Sys2Proof.Machine

/-! ### Encoding -/

/-- Decoding the word of an instruction gives the instruction back, every operand at every value
(R50, R51, R53). -/
def Obligations.DecodeOfEncode : Prop :=
  ∀ i : Instr, i.WellFormed = true ∧ decode (encode i) = .ok i

/-- A word that decodes is the word of the instruction it decodes to: no bit is dropped (R53, R55). -/
def Obligations.EncodeOfDecode : Prop :=
  ∀ (c : CmdWord) (i : Instr), decode c = .ok i → encode i = c

/-- R53, R55: a word selects a row exactly when `(c & mask) = match`, and no word selects two. -/
def Obligations.DecodeSelectsOpcodeRow : Prop :=
  (∀ c : CmdWord, ∀ r ∈ opcodeRows,
    (c &&& r.mask = r.pattern ↔ ∃ i, decode c = .ok i ∧ i.mnemonic = r.mnemonic)) ∧
  (∀ c : CmdWord, ∀ r ∈ opcodeRows, ∀ r' ∈ opcodeRows,
    c &&& r.mask = r.pattern → c &&& r'.mask = r'.pattern → r = r') ∧
  (∀ (c : CmdWord) (i : Instr), decode c = .ok i → ∃ r ∈ opcodeRows, r.mnemonic = i.mnemonic)

/-- R51: every operand field is the unsigned number in its bits, taken as it stands. -/
def Obligations.OperandFieldsAsTheyStand : Prop :=
  (∀ op : Word, decode (0x01#8 ++ op) = .ok (.setpoly op) ∧ decode (0x02#8 ++ op) = .ok (.setwidth op) ∧
    decode (0x03#8 ++ op) = .ok (.setinit op) ∧ decode (0x11#8 ++ op) = .ok (.seed op)) ∧
  (∀ b : Byte, decode (0x12#8 ++ (0#24 ++ b)) = .ok (.byte b) ∧
    decode (0x20#8 ++ (0#24 ++ b)) = .ok (.rdtbl b)) ∧
  (∀ n : BitVec 2, decode (0x05#8 ++ (0#30 ++ n)) = .ok (.preset n)) ∧
  decode (0x04#8 ++ 0#32) = .ok .gen ∧ decode (0x10#8 ++ 0#32) = .ok .ldinit ∧
  decode (0x13#8 ++ 0#32) = .ok .rdcrc ∧ decode (0x21#8 ++ 0#32) = .ok .rdpoly ∧
  decode (0x22#8 ++ 0#32) = .ok .rdwidth ∧ decode (0x23#8 ++ 0#32) = .ok .rdinit ∧
  decode (0x24#8 ++ 0#32) = .ok .rdstat ∧ decode (0xFF#8 ++ 0#32) = .ok .rst

/-- Words written out in the spec decode to the commands it gives for them (R90 to R115). -/
def Obligations.SampleWordsDecode : Prop :=
  decode 0x0100001021 = .ok (.setpoly 0x1021) ∧ decode 0x0400000000 = .ok .gen ∧
  decode 0x0500000003 = .ok (.preset 3) ∧ decode 0x1100005349 = .ok (.seed 0x5349) ∧
  decode 0x1200000031 = .ok (.byte 0x31) ∧ decode 0x20000000FF = .ok (.rdtbl 255) ∧
  decode 0xFF00000000 = .ok .rst ∧ decode 0x1200000100 = .error (.reservedBits .byte) ∧
  decode 0x0000000000 = .error (.illegalOpcode 0)

/-- R54: an opcode that is in no row raises `E_ILLEGAL_COMMAND` whatever the operand. -/
def Obligations.IllegalOpcodesFault : Prop :=
  ∀ (o : Byte) (op : Word) (s : State),
    o ∉ [0x01#8, 0x02#8, 0x03#8, 0x04#8, 0x05#8, 0x10#8, 0x11#8, 0x12#8, 0x13#8, 0x20#8, 0x21#8,
      0x22#8, 0x23#8, 0x24#8, 0xFF#8] → s.fault = 0#8 →
    runWord (o ++ op) s = .next { s with fault := 3#8, responses := s.responses ++ [3#8 ++ 0#32] }

/-- R55: a word whose opcode is in R53 and whose reserved operand bits are not all 0 raises
`E_ILLEGAL_COMMAND`; it is not executed with the bits ignored. -/
def Obligations.ReservedBitsFault : Prop :=
  ∀ (op : Word) (s : State), s.fault = 0#8 →
    (op ≠ 0#32 → ∀ o ∈ [0x04#8, 0x10#8, 0x13#8, 0x21#8, 0x22#8, 0x23#8, 0x24#8, 0xFF#8],
      runWord (o ++ op) s = .next { s with fault := 3#8, responses := s.responses ++ [3#8 ++ 0#32] }) ∧
    (256 ≤ op.toNat → ∀ o ∈ [0x12#8, 0x20#8],
      runWord (o ++ op) s = .next { s with fault := 3#8, responses := s.responses ++ [3#8 ++ 0#32] }) ∧
    (4 ≤ op.toNat →
      runWord (0x05#8 ++ op) s = .next { s with fault := 3#8, responses := s.responses ++ [3#8 ++ 0#32] })

/-! ### The step -/

/-- A step runs the decoded instruction: with a word at the port that decodes, the step is `exec` of
it, the host's event having been taken. That a step takes one event off `State.inputs` is the model's
choice (assumption 1). -/
def Obligations.StepRunsDecodedInstruction : Prop :=
  ∀ (s : State) (c : CmdWord) (rest : List PortEvent) (i : Instr),
    s.inReset = false → s.inputs = .command c :: rest → decode c = .ok i →
    step s = exec i { s with inputs := rest }

/-- A word placed at the port by `withFetchWord` is run by the very next step. Presenting a word to a
block held in reset is the model's choice: the block is out of reset for it (assumptions 1 and 6). -/
def Obligations.PlacedWordRunsNext : Prop :=
  ∀ (s : State) (w : Nat) (i : Instr), w < 2 ^ 40 → decode (BitVec.ofNat 40 w) = .ok i →
    step (s.withFetchWord 40 w) = exec i { s with inReset := false }

/-- With nothing presented the block is idle and holds its state (R135); that a step then changes
nothing at all is the model's choice (assumption 1). -/
def Obligations.IdleHoldsState : Prop := ∀ s : State, s.inputs = [] → step s = .next s

/-! ### The commands: completion, faults, echo, frame

Each statement gives the whole next state, so that every register, flag, table entry and port field
not named in it is unchanged. -/

/-- R90. -/
def Obligations.SetpolyCommand : Prop :=
  ∀ (imm : Word) (s : State),
    runWord (0x01#8 ++ imm) s = exec (.setpoly imm) s ∧
    (s.fault ≠ 0#8 →
      exec (.setpoly imm) s = .next { s with responses := s.responses ++ [s.fault ++ 0#32] }) ∧
    (s.fault = 0#8 → s.tv = true → exec (.setpoly imm) s =
      .next { s with fault := 4#8, responses := s.responses ++ [4#8 ++ 0#32] }) ∧
    (s.fault = 0#8 → s.tv = false → exec (.setpoly imm) s =
      .next { s with poly := imm, responses := s.responses ++ [0#8 ++ 0#32] })

/-- R91: any 32-bit value is stored, legal or not. -/
def Obligations.SetwidthCommand : Prop :=
  ∀ (imm : Word) (s : State),
    runWord (0x02#8 ++ imm) s = exec (.setwidth imm) s ∧
    (s.fault ≠ 0#8 →
      exec (.setwidth imm) s = .next { s with responses := s.responses ++ [s.fault ++ 0#32] }) ∧
    (s.fault = 0#8 → s.tv = true → exec (.setwidth imm) s =
      .next { s with fault := 4#8, responses := s.responses ++ [4#8 ++ 0#32] }) ∧
    (s.fault = 0#8 → s.tv = false → exec (.setwidth imm) s =
      .next { s with width := imm, responses := s.responses ++ [0#8 ++ 0#32] })

/-- R92. -/
def Obligations.SetinitCommand : Prop :=
  ∀ (imm : Word) (s : State),
    runWord (0x03#8 ++ imm) s = exec (.setinit imm) s ∧
    (s.fault ≠ 0#8 →
      exec (.setinit imm) s = .next { s with responses := s.responses ++ [s.fault ++ 0#32] }) ∧
    (s.fault = 0#8 → s.tv = true → exec (.setinit imm) s =
      .next { s with fault := 4#8, responses := s.responses ++ [4#8 ++ 0#32] }) ∧
    (s.fault = 0#8 → s.tv = false → exec (.setinit imm) s =
      .next { s with init := imm, responses := s.responses ++ [0#8 ++ 0#32] })

/-- R93: the table of R71 in all 256 entries and `TV`, or a fault that writes neither. -/
def Obligations.GenCommand : Prop :=
  ∀ s : State,
    runWord (0x04#8 ++ 0#32) s = exec .gen s ∧
    (∀ op : Word, op ≠ 0#32 → s.fault = 0#8 → runWord (0x04#8 ++ op) s =
      .next { s with fault := 3#8, responses := s.responses ++ [3#8 ++ 0#32] }) ∧
    (s.fault ≠ 0#8 → ∀ op : Word, runWord (0x04#8 ++ op) s =
      .next { s with responses := s.responses ++ [s.fault ++ 0#32] }) ∧
    (s.fault = 0#8 → s.tv = true → exec .gen s =
      .next { s with fault := 4#8, responses := s.responses ++ [4#8 ++ 0#32] }) ∧
    (s.fault = 0#8 → s.tv = false → ¬ LegalWidth s.width.toNat → exec .gen s =
      .next { s with fault := 1#8, responses := s.responses ++ [1#8 ++ 0#32] }) ∧
    (s.fault = 0#8 → s.tv = false → LegalWidth s.width.toNat →
      ∃ T : Table, (∀ i : Byte, (readEntry T i).toNat = tableEntry s.poly.toNat s.width.toNat i) ∧
        exec .gen s =
          .next { s with table := T, tv := true, responses := s.responses ++ [0#8 ++ 0#32] })

/-- R94, R33: the preset's triple, its table and `TV`, in one step. -/
def Obligations.PresetCommand : Prop :=
  ∀ s : State,
    (∀ n : BitVec 2, runWord (0x05#8 ++ (0#30 ++ n)) s = exec (.preset n) s) ∧
    (∀ op : Word, 4 ≤ op.toNat → s.fault = 0#8 → runWord (0x05#8 ++ op) s =
      .next { s with fault := 3#8, responses := s.responses ++ [3#8 ++ 0#32] }) ∧
    (s.fault ≠ 0#8 → ∀ op : Word, runWord (0x05#8 ++ op) s =
      .next { s with responses := s.responses ++ [s.fault ++ 0#32] }) ∧
    (s.fault = 0#8 → s.tv = true → ∀ n : BitVec 2, exec (.preset n) s =
      .next { s with fault := 4#8, responses := s.responses ++ [4#8 ++ 0#32] }) ∧
    (s.fault = 0#8 → s.tv = false → ∀ (n : BitVec 2) (p w v : Word),
      (n, p, w, v) ∈ [(0#2, 0x04C11DB7#32, 32#32, 0xFFFFFFFF#32),
        (1#2, 0x1EDC6F41#32, 32#32, 0xFFFFFFFF#32), (2#2, 0x1021#32, 16#32, 0xFFFF#32),
        (3#2, 0x07#32, 8#32, 0xFF#32)] →
      ∃ T : Table, (∀ i : Byte, (readEntry T i).toNat = tableEntry p.toNat w.toNat i) ∧
        exec (.preset n) s = .next { s with
          poly := p, width := w, init := v, table := T, tv := true
          responses := s.responses ++ [0#8 ++ 0#32] })

/-- R100. -/
def Obligations.LdinitCommand : Prop :=
  ∀ s : State,
    runWord (0x10#8 ++ 0#32) s = exec .ldinit s ∧
    (∀ op : Word, op ≠ 0#32 → s.fault = 0#8 → runWord (0x10#8 ++ op) s =
      .next { s with fault := 3#8, responses := s.responses ++ [3#8 ++ 0#32] }) ∧
    (s.fault ≠ 0#8 → ∀ op : Word, runWord (0x10#8 ++ op) s =
      .next { s with responses := s.responses ++ [s.fault ++ 0#32] }) ∧
    (s.fault = 0#8 → s.tv = false → exec .ldinit s =
      .next { s with fault := 2#8, responses := s.responses ++ [2#8 ++ 0#32] }) ∧
    (s.fault = 0#8 → s.tv = true → exec .ldinit s = .next { s with
      crc := BitVec.ofNat 32 (s.init.toNat % 2 ^ s.width.toNat), rv := true
      responses := s.responses ++ [0#8 ++ 0#32] })

/-- R101; `SEED` with the value of `INIT` is `LDINIT`, and with the value `RDCRC` answered it restores
the computation. -/
def Obligations.SeedCommand : Prop :=
  (∀ s : State, exec (.seed s.init) s = exec .ldinit s) ∧
  (∀ s : State, s.Inv → s.fault = 0#8 → s.rv = true →
    exec (.seed s.crc) s = .next { s with responses := s.responses ++ [0#8 ++ 0#32] }) ∧
  ∀ (imm : Word) (s : State),
    runWord (0x11#8 ++ imm) s = exec (.seed imm) s ∧
    (s.fault ≠ 0#8 →
      exec (.seed imm) s = .next { s with responses := s.responses ++ [s.fault ++ 0#32] }) ∧
    (s.fault = 0#8 → s.tv = false → exec (.seed imm) s =
      .next { s with fault := 2#8, responses := s.responses ++ [2#8 ++ 0#32] }) ∧
    (s.fault = 0#8 → s.tv = true → exec (.seed imm) s = .next { s with
      crc := BitVec.ofNat 32 (imm.toNat % 2 ^ s.width.toNat), rv := true
      responses := s.responses ++ [0#8 ++ 0#32] })

/-- R102: `idx <- CRC[W-1 : W-8] XOR b8`, `CRC <- Mask(W, (CRC << 8) XOR TABLE[idx])`. -/
def Obligations.ByteCommand : Prop :=
  ∀ s : State,
    (∀ b : Byte, runWord (0x12#8 ++ (0#24 ++ b)) s = exec (.byte b) s) ∧
    (∀ op : Word, 256 ≤ op.toNat → s.fault = 0#8 → runWord (0x12#8 ++ op) s =
      .next { s with fault := 3#8, responses := s.responses ++ [3#8 ++ 0#32] }) ∧
    (s.fault ≠ 0#8 → ∀ op : Word, runWord (0x12#8 ++ op) s =
      .next { s with responses := s.responses ++ [s.fault ++ 0#32] }) ∧
    (s.fault = 0#8 → s.tv = false → ∀ b : Byte, exec (.byte b) s =
      .next { s with fault := 2#8, responses := s.responses ++ [2#8 ++ 0#32] }) ∧
    (s.fault = 0#8 → s.tv = true → s.rv = false → ∀ b : Byte, exec (.byte b) s =
      .next { s with fault := 5#8, responses := s.responses ++ [5#8 ++ 0#32] }) ∧
    (s.fault = 0#8 → s.tv = true → s.rv = true → LegalWidth s.width.toNat → ∀ b : Byte,
      ∃ r : Word,
        r.toNat = ((s.crc.toNat <<< 8) ^^^
          (readEntry s.table (s.crc.extractLsb' (s.width.toNat - 8) 8 ^^^ b)).toNat) %
            2 ^ s.width.toNat ∧
        exec (.byte b) s = .next { s with crc := r, responses := s.responses ++ [0#8 ++ 0#32] })

/-- R103; the value read is below `2^W`, its higher bits are 0. -/
def Obligations.RdcrcCommand : Prop :=
  ∀ s : State,
    runWord (0x13#8 ++ 0#32) s = exec .rdcrc s ∧
    (∀ op : Word, op ≠ 0#32 → s.fault = 0#8 → runWord (0x13#8 ++ op) s =
      .next { s with fault := 3#8, responses := s.responses ++ [3#8 ++ 0#32] }) ∧
    (s.fault ≠ 0#8 → ∀ op : Word, runWord (0x13#8 ++ op) s =
      .next { s with responses := s.responses ++ [s.fault ++ 0#32] }) ∧
    (s.fault = 0#8 → s.tv = false → exec .rdcrc s =
      .next { s with fault := 2#8, responses := s.responses ++ [2#8 ++ 0#32] }) ∧
    (s.fault = 0#8 → s.tv = true → s.rv = false → exec .rdcrc s =
      .next { s with fault := 5#8, responses := s.responses ++ [5#8 ++ 0#32] }) ∧
    (s.fault = 0#8 → s.tv = true → s.rv = true → exec .rdcrc s =
      .next { s with responses := s.responses ++ [0#8 ++ s.crc] }) ∧
    (s.Inv → s.rv = true → s.crc.toNat < 2 ^ s.width.toNat)

/-- R110: the entry, which by R21 (b) is `TableEntry(POLY, WIDTH, b8)`; entry 0 is 0 and entry 1 is
`Mask(W, POLY)`. -/
def Obligations.RdtblCommand : Prop :=
  ∀ s : State,
    (∀ b : Byte, runWord (0x20#8 ++ (0#24 ++ b)) s = exec (.rdtbl b) s) ∧
    (∀ op : Word, 256 ≤ op.toNat → s.fault = 0#8 → runWord (0x20#8 ++ op) s =
      .next { s with fault := 3#8, responses := s.responses ++ [3#8 ++ 0#32] }) ∧
    (s.fault ≠ 0#8 → ∀ op : Word, runWord (0x20#8 ++ op) s =
      .next { s with responses := s.responses ++ [s.fault ++ 0#32] }) ∧
    (s.fault = 0#8 → s.tv = false → ∀ b : Byte, exec (.rdtbl b) s =
      .next { s with fault := 2#8, responses := s.responses ++ [2#8 ++ 0#32] }) ∧
    (s.fault = 0#8 → s.tv = true → ∀ b : Byte, exec (.rdtbl b) s =
      .next { s with responses := s.responses ++ [0#8 ++ readEntry s.table b] }) ∧
    (s.Inv → s.tv = true →
      (∀ b : Byte, (readEntry s.table b).toNat = tableEntry s.poly.toNat s.width.toNat b) ∧
      readEntry s.table 0#8 = 0#32 ∧
      (readEntry s.table 1#8).toNat = s.poly.toNat % 2 ^ s.width.toNat)

/-- R111: all 32 stored bits of `POLY`, unmasked. -/
def Obligations.RdpolyCommand : Prop :=
  ∀ s : State,
    runWord (0x21#8 ++ 0#32) s = exec .rdpoly s ∧
    (∀ op : Word, op ≠ 0#32 → s.fault = 0#8 → runWord (0x21#8 ++ op) s =
      .next { s with fault := 3#8, responses := s.responses ++ [3#8 ++ 0#32] }) ∧
    (s.fault ≠ 0#8 → ∀ op : Word, runWord (0x21#8 ++ op) s =
      .next { s with responses := s.responses ++ [s.fault ++ 0#32] }) ∧
    (s.fault = 0#8 → exec .rdpoly s = .next { s with responses := s.responses ++ [0#8 ++ s.poly] })

/-- R112. -/
def Obligations.RdwidthCommand : Prop :=
  ∀ s : State,
    runWord (0x22#8 ++ 0#32) s = exec .rdwidth s ∧
    (∀ op : Word, op ≠ 0#32 → s.fault = 0#8 → runWord (0x22#8 ++ op) s =
      .next { s with fault := 3#8, responses := s.responses ++ [3#8 ++ 0#32] }) ∧
    (s.fault ≠ 0#8 → ∀ op : Word, runWord (0x22#8 ++ op) s =
      .next { s with responses := s.responses ++ [s.fault ++ 0#32] }) ∧
    (s.fault = 0#8 → exec .rdwidth s = .next { s with responses := s.responses ++ [0#8 ++ s.width] }) ∧
    (s.Inv → s.tv = true → LegalWidth s.width.toNat)

/-- R113: all 32 stored bits of `INIT`, unmasked. -/
def Obligations.RdinitCommand : Prop :=
  ∀ s : State,
    runWord (0x23#8 ++ 0#32) s = exec .rdinit s ∧
    (∀ op : Word, op ≠ 0#32 → s.fault = 0#8 → runWord (0x23#8 ++ op) s =
      .next { s with fault := 3#8, responses := s.responses ++ [3#8 ++ 0#32] }) ∧
    (s.fault ≠ 0#8 → ∀ op : Word, runWord (0x23#8 ++ op) s =
      .next { s with responses := s.responses ++ [s.fault ++ 0#32] }) ∧
    (s.fault = 0#8 → exec .rdinit s = .next { s with responses := s.responses ++ [0#8 ++ s.init] })

/-- R114, R19: the `STATUS` view, in every state, Faulted too; a malformed word is echoed or faults. -/
def Obligations.RdstatCommand : Prop :=
  ∀ s : State,
    runWord (0x24#8 ++ 0#32) s = exec .rdstat s ∧
    (∀ op : Word, op ≠ 0#32 → s.fault = 0#8 → runWord (0x24#8 ++ op) s =
      .next { s with fault := 3#8, responses := s.responses ++ [3#8 ++ 0#32] }) ∧
    (∀ op : Word, op ≠ 0#32 → s.fault ≠ 0#8 → runWord (0x24#8 ++ op) s =
      .next { s with responses := s.responses ++ [s.fault ++ 0#32] }) ∧
    ∃ d : Word, exec .rdstat s = .next { s with responses := s.responses ++ [0#8 ++ d] } ∧
      d.getLsbD 0 = s.tv ∧ d.getLsbD 1 = s.rv ∧ d.extractLsb' 2 6 = 0#6 ∧
      d.extractLsb' 8 8 = s.fault ∧ d.extractLsb' 16 16 = 0#16

/-- R115: everything to the reset values of R24, in every state, Faulted too. `TABLE` and `CRC` are
unspecified: whatever they are, nothing else depends on them. -/
def Obligations.RstCommand : Prop :=
  ∀ s : State,
    runWord (0xFF#8 ++ 0#32) s = exec .rst s ∧
    (∀ op : Word, op ≠ 0#32 → s.fault = 0#8 → runWord (0xFF#8 ++ op) s =
      .next { s with fault := 3#8, responses := s.responses ++ [3#8 ++ 0#32] }) ∧
    (∀ op : Word, op ≠ 0#32 → s.fault ≠ 0#8 → runWord (0xFF#8 ++ op) s =
      .next { s with responses := s.responses ++ [s.fault ++ 0#32] }) ∧
    ∃ (T : Table) (r : Word) (k : Nat), exec .rst s = .next { s with
      poly := 0, width := 0, init := 0, tv := false, rv := false, fault := 0
      table := T, crc := r, freeCount := k
      responses := s.responses ++ [0#8 ++ 0#32] }

/-! ### Checks, faults, the Faulted state -/

/-- R127: the order of the checks, for every command but `RDSTAT` and `RST`, which make none. -/
def Obligations.CheckOrder : Prop :=
  ∀ (i : Instr) (s : State), s.fault = 0#8 →
    (isConfig i = true → s.tv = true → exec i s =
      .next { s with fault := 4#8, responses := s.responses ++ [4#8 ++ 0#32] }) ∧
    (needsTable i = true → s.tv = false → exec i s =
      .next { s with fault := 2#8, responses := s.responses ++ [2#8 ++ 0#32] }) ∧
    (needsSeed i = true → s.tv = true → s.rv = false → exec i s =
      .next { s with fault := 5#8, responses := s.responses ++ [5#8 ++ 0#32] }) ∧
    (i = .gen → s.tv = false → ¬ LegalWidth s.width.toNat → exec i s =
      .next { s with fault := 1#8, responses := s.responses ++ [1#8 ++ 0#32] }) ∧
    (¬ (isConfig i = true ∧ s.tv = true) → ¬ (needsTable i = true ∧ s.tv = false) →
      ¬ (needsSeed i = true ∧ s.rv = false) → ¬ (i = .gen ∧ ¬ LegalWidth s.width.toNat) →
      ∃ (t : State) (d : Word), exec i s = .next t ∧ t.fault = 0#8 ∧
        t.responses = s.responses ++ [0#8 ++ d])

/-- R128: while Faulted, every word but a well-formed `RDSTAT` or `RST` is answered with the latched
code and changes nothing. -/
def Obligations.FaultedEchoes : Prop :=
  ∀ (s : State) (c : CmdWord) (rest : List PortEvent), s.inReset = false →
    s.inputs = .command c :: rest → s.fault ≠ 0#8 →
    decode c ≠ .ok .rdstat → decode c ≠ .ok .rst →
    step s = .next { s with inputs := rest, responses := s.responses ++ [s.fault ++ 0#32] }

/-- R123, R21 (e): a step that enters the Faulted state changes nothing but `FAULT`, to a code of 1 to
5, and answers with that code. -/
def Obligations.FaultIsPrecise : Prop :=
  ∀ s t : State, s.fault = 0#8 → step s = .next t → t.fault ≠ 0#8 →
    t.fault.toNat ≤ 5 ∧
    ∃ (c : CmdWord) (rest : List PortEvent), s.inputs = .command c :: rest ∧
      t = { s with
        inputs := rest, fault := t.fault, responses := s.responses ++ [t.fault ++ 0#32] }

/-- R18, R129: while `FAULT` is not 0 it keeps the first code, and everything else its value, until a
reset. -/
def Obligations.FirstFaultKept : Prop :=
  ∀ s t : State, s.fault ≠ 0#8 → step s = .next t → ¬ nextResets s →
    t = { s with inputs := t.inputs, responses := t.responses, inReset := t.inReset }

/-- R134, R60 (the queues of the ports are the model's, assumptions 1 and 2): every
command word presented to a block that is not in reset gets exactly one response, in issue order; its status is `OK` or the code in `FAULT`, at most 5, and then its data is 0. -/
def Obligations.EveryCommandAnswered : Prop :=
  ∀ (s : State) (c : CmdWord) (rest : List PortEvent), s.inReset = false →
    s.inputs = .command c :: rest → s.FaultInRange →
    ∃ (t : State) (w : RspWord), step s = .next t ∧ t.inputs = rest ∧
      t.responses = s.responses ++ [w] ∧ (statusField w).toNat ≤ 5 ∧
      (statusField w = 0#8 ∨ (statusField w = t.fault ∧ dataField w = 0#32))

/-- R52: the data of a response is 0 for every command that is not a read command, and for every
response whose status is not `OK`. -/
def Obligations.ResponseDataZero : Prop :=
  ∀ (i : Instr) (s t : State), exec i s = .next t →
    ∃ w : RspWord, t.responses = s.responses ++ [w] ∧
      (isRead i = false ∨ statusField w ≠ 0#8 → dataField w = 0#32)

/-- R130: `fault_o` is 1 exactly in the Faulted state, rises only with `FAULT` and falls only at a
reset. -/
def Obligations.FaultPinLevel : Prop :=
  (∀ s : State, faultPin s = true ↔ lifecycle s = .faulted) ∧
  (∀ s t : State, step s = .next t → faultPin s = true → faultPin t = false → nextResets s) ∧
  (∀ s t : State, step s = .next t → faultPin s = false → faultPin t = true →
    ∃ (c : CmdWord) (rest : List PortEvent), s.inputs = .command c :: rest ∧
      t.responses = s.responses ++ [t.fault ++ 0#32])

/-! ### Lifecycle and who writes what -/

/-- R20: the transitions of the lifecycle. -/
def Obligations.LifecycleTransitions : Prop :=
  ∀ s t : State, step s = .next t →
    (nextResets s → lifecycle t = .unconfigured) ∧
    (¬ nextResets s →
      lifecycle t = lifecycle s ∨
      (lifecycle s = .unconfigured ∧ lifecycle t = .ready ∧
        (nextIs s .gen ∨ ∃ n, nextIs s (.preset n))) ∨
      (lifecycle s ≠ .faulted ∧ lifecycle t = .faulted))

/-- R17, R43: `TV` is set only by a successful `GEN` or `PRESET` and cleared only by a reset. -/
def Obligations.TableValidWriters : Prop :=
  ∀ s t : State, step s = .next t →
    (nextResets s → t.tv = false) ∧
    (¬ nextResets s → s.tv = true → t.tv = true) ∧
    (s.tv = false → t.tv = true →
      s.fault = 0#8 ∧ t.fault = 0#8 ∧ (nextIs s .gen ∨ ∃ n, nextIs s (.preset n)))

/-- R16: `RV` is set only by a successful `LDINIT` or `SEED` and cleared only by a reset. -/
def Obligations.RegisterValidWriters : Prop :=
  ∀ s t : State, step s = .next t →
    (nextResets s → t.rv = false) ∧
    (¬ nextResets s → s.rv = true → t.rv = true) ∧
    (s.rv = false → t.rv = true →
      s.fault = 0#8 ∧ t.fault = 0#8 ∧ s.tv = true ∧ (nextIs s .ldinit ∨ ∃ v, nextIs s (.seed v)))

/-- R15, R25 (a): `CRC` changes only by `LDINIT`, `SEED`, `BYTE` and a reset. -/
def Obligations.CrcWriters : Prop :=
  ∀ s t : State, step s = .next t →
    t.crc = s.crc ∨ nextResets s ∨
    (s.fault = 0#8 ∧ s.tv = true ∧
      (nextIs s .ldinit ∨ (∃ v, nextIs s (.seed v)) ∨ (s.rv = true ∧ ∃ b, nextIs s (.byte b))))

/-- R31: `TABLE` is written only by `GEN` and `PRESET`, while `TV = 0`, and by a reset. -/
def Obligations.TableWriters : Prop :=
  ∀ s t : State, step s = .next t →
    t.table = s.table ∨ nextResets s ∨
    (s.fault = 0#8 ∧ s.tv = false ∧ t.tv = true ∧ (nextIs s .gen ∨ ∃ n, nextIs s (.preset n)))

/-- R12, R13, R14, R20: once the table is valid, the configuration and the table keep their values
until a reset. -/
def Obligations.ConfigurationLocked : Prop :=
  ∀ s t : State, step s = .next t → s.tv = true → ¬ nextResets s →
    t.poly = s.poly ∧ t.width = s.width ∧ t.init = s.init ∧ t.table = s.table ∧ t.tv = true

/-- R40: a read command that succeeds changes nothing, so reading twice gives the same answer twice. -/
def Obligations.ReadsHaveNoSideEffect : Prop :=
  ∀ (i : Instr) (s t : State), isRead i = true → exec i s = .next t → t.fault = s.fault →
    ∃ w : RspWord, t = { s with responses := s.responses ++ [w] } ∧
      exec i t = .next { s with responses := s.responses ++ [w] ++ [w] }

/-! ### Invariants, reset, unspecified values -/

/-- The invariant of R21 (a) to (d) holds right after reset (R24), and with it `HeldAtReset`, the model's
choice of assumption 6. -/
def Obligations.InvariantAtReset : Prop := State.reset.Inv

/-- Every step keeps the invariant of R21 (a) to (d), and with it `HeldAtReset`: that a block held in
reset has the values of R24 already is the model's choice (assumption 6), for R140 gives them on leaving
reset. -/
def Obligations.InvariantKept : Prop :=
  ∀ s t : State, s.Inv → step s = .next t → t.Inv

/-- R24, R32: two blocks that differ only in what R24 leaves unspecified answer alike, for ever: no
response and no register depends on `TABLE` while `TV = 0` nor on `CRC` while `RV = 0`. -/
def Obligations.UnspecifiedNeverLeaks : Prop :=
  ∀ s t : State, s.Agree t → ∃ s' t' : State, step s = .next s' ∧ step t = .next t' ∧ s'.Agree t'

/-- R24, R140, R141: the values after hard reset and after `RST`, the same in all that R24 gives. -/
def Obligations.ResetValues : Prop :=
  (State.reset.poly = 0#32 ∧ State.reset.width = 0#32 ∧ State.reset.init = 0#32 ∧ State.reset.tv = false ∧
    State.reset.rv = false ∧ State.reset.fault = 0#8 ∧ lifecycle State.reset = .unconfigured) ∧
  (∀ s : State, ∃ t : State, exec .rst s = .next t ∧
    State.Agree t { State.reset with
      inReset := s.inReset, inputs := s.inputs, responses := s.responses ++ [0#8 ++ 0#32] })

/-- R140, R142: when `rst_n` falls the block takes the reset state, whatever command was in flight, and
that command gets no response. The pin's fall as an event, and the reset
values standing from the fall on, are the model's choice (assumption 6). -/
def Obligations.HardResetAbandonsCommand : Prop :=
  ∀ (s : State) (inFlight : Option CmdWord) (rest : List PortEvent),
    s.inputs = .resetLow inFlight :: rest →
    ∃ t : State, step s = .next t ∧ cmdReady t = false ∧ faultPin t = false ∧
      State.Agree t { State.reset with inReset := true, inputs := rest, responses := s.responses }

/-- R60, R140: while the block is held in reset `cmd_ready` is 0 and a command presented is not issued:
nothing changes and nothing answers; the block leaves reset with its state as it is. The pin's level as
a flag, and dropping such a command, are the model's choice (assumption 6). -/
def Obligations.NothingIssuedInReset : Prop :=
  (∀ (s : State) (c : CmdWord) (rest : List PortEvent), s.inReset = true →
    s.inputs = .command c :: rest →
    cmdReady s = false ∧ step s = .next { s with inputs := rest }) ∧
  (∀ (s : State) (rest : List PortEvent), s.inputs = .resetHigh :: rest →
    step s = .next { s with inputs := rest, inReset := false })

/-! ### The datapath -/

/-- R73: the loop body, its masked form, and the form with bit slices for a register and a table within
the width. -/
def Obligations.StepSliceForm : Prop :=
  (∀ (T : Byte → Nat) (w a : Nat) (b : Byte),
    rawStep T w a b = (a <<< 8) ^^^ T (BitVec.ofNat 8 (((a >>> (w - 8)) ^^^ b.toNat) &&& 0xFF)) ∧
    crcStep T w a b = mask w (rawStep T w a b)) ∧
  ∀ (T : Byte → Nat) (w r : Nat) (b : Byte), LegalWidth w → (∀ i, T i < 2 ^ w) → r < 2 ^ w →
    crcStep T w r b < 2 ^ w ∧
    (w = 8 → crcStep T w r b = T (BitVec.ofNat 8 r ^^^ b)) ∧
    crcStep T w r b =
      (r % 2 ^ (w - 8) * 256) ^^^ T (BitVec.ofNat 8 (r / 2 ^ (w - 8)) ^^^ b)

/-- R77: the split law, for two chunks and for any number of them. -/
def Obligations.SplitLaw : Prop :=
  ∀ (cfg : CrcConfig) (x y : List Byte) (prior : Nat), LegalWidth cfg.width →
    incUpdate cfg y (incUpdate cfg x prior) = incUpdate cfg (x ++ y) prior ∧
    incUpdate cfg y (incUpdate cfg x cfg.init) = update cfg (x ++ y) ∧
    (∀ chunks : List (List Byte),
      chunks.foldl (fun r c => incUpdate cfg c r) (incUpdate cfg x prior) =
        incUpdate cfg (x ++ chunks.flatten) prior)

/-- R78: masking early is masking late, in the step, in the fold and inside the table entry. -/
def Obligations.MaskEarlyIsMaskLate : Prop :=
  ∀ (T : Byte → Nat) (w : Nat), LegalWidth w → (∀ i, T i < 2 ^ w) →
    (∀ (a : Nat) (b : Byte), mask w (rawStep T w a b) = crcStep T w (mask w a) b) ∧
    (∀ (a : Nat) (data : List Byte), mask w (rawFold T w a data) = maskedFold T w a data) ∧
    (∀ (p n a : Nat),
      mask w (divSteps p w n a) = Nat.iterate (fun x => mask w (divStep p w x)) n (mask w a))

/-- R79: bits above the width are ignored in every input, of the functions and of the machine: in
`POLY` by `GEN`, in `INIT` by `LDINIT`, in the operand of `SEED`. -/
def Obligations.HighBitsIgnored : Prop :=
  (∀ (s : State) (imm m : Word), LegalWidth s.width.toNat →
    (m.toNat = mask s.width.toNat imm.toNat → exec (.seed imm) s = exec (.seed m) s) ∧
    (m.toNat = mask s.width.toNat s.init.toNat → exec .ldinit s = exec (.seed m) s) ∧
    (m.toNat = mask s.width.toNat s.poly.toNat →
      generatedTable s.poly s.width = generatedTable m s.width)) ∧
  ∀ (p w v prior : Nat) (data : List Byte), LegalWidth w →
    (∀ i, genTable p w i = genTable (mask w p) w i) ∧
    update ⟨p, w, v⟩ data = update ⟨mask w p, w, mask w v⟩ data ∧
    incUpdate ⟨p, w, v⟩ data prior = incUpdate ⟨p, w, v⟩ data (mask w prior)

/-- R80 (a) to (d): the laws of the table. -/
def Obligations.TableLaws : Prop :=
  ∀ p w : Nat, LegalWidth w →
    genTable p w 0#8 = 0 ∧ genTable p w 1#8 = mask w p ∧
    (∀ i j : Byte, genTable p w (i ^^^ j) = genTable p w i ^^^ genTable p w j) ∧
    (∀ i : Byte, genTable p w i < 2 ^ w)

/-- R80 (e): the table-driven step is eight steps of bit-serial polynomial division. -/
def Obligations.StepIsBitSerialDivision : Prop :=
  ∀ p w : Nat, LegalWidth w →
    (∀ i : Byte, genTable p w i = bitSerial p w 8 (i.toNat <<< (w - 8))) ∧
    (∀ (r : Nat) (b : Byte), r < 2 ^ w →
      crcStep (genTable p w) w r b = bitSerial p w 8 (r ^^^ (b.toNat <<< (w - 8))))

/-- R82: for one width two tables are equal exactly when the masked polynomials are; the preset tables
are pairwise different; the zero polynomial gives one table at every width. -/
def Obligations.TablesDistinguishPolynomials : Prop :=
  (∀ p q w : Nat, LegalWidth w → (genTable p w = genTable q w ↔ mask w p = mask w q)) ∧
  (∀ n m : BitVec 2, n ≠ m →
    genTable (presetRom n).1.toNat (presetRom n).2.1.toNat ≠
      genTable (presetRom m).1.toNat (presetRom m).2.1.toNat) ∧
  (∀ (w : Nat) (i : Byte), LegalWidth w → genTable 0 w i = 0)

/-- R75, R76, R83: the empty buffer gives the masked seed, one-shot is incremental from the initial
value, and every result is below `2^w`. -/
def Obligations.UpdateEdgesAndRange : Prop :=
  ∀ (cfg : CrcConfig) (data : List Byte) (prior : Nat),
    update cfg [] = mask cfg.width cfg.init ∧ incUpdate cfg [] prior = mask cfg.width prior ∧
    update cfg data = incUpdate cfg data cfg.init ∧
    update cfg data < 2 ^ cfg.width ∧ incUpdate cfg data prior < 2 ^ cfg.width

/-! ### Sequences of commands -/

/-- R94, R59: `PRESET n` leaves the state that `CONFIG` with the ROM's triple leaves. -/
def Obligations.PresetIsConfig : Prop :=
  ∀ (n : BitVec 2) (s : State), s.fault = 0#8 → s.tv = false →
    ∃ t u : State, exec (.preset n) s = .next t ∧
      execAll (configCommands (presetRom n).1 (presetRom n).2.1 (presetRom n).2.2) s = .next u ∧
      u = { t with responses := s.responses ++ List.replicate 4 (0#8 ++ 0#32) }

/-- R104 (a), R59: the words of `UPDATE d`, presented to a Ready block, run to its last answer
`Update(cfg, d)`, each other answer being `OK` with no data. -/
def Obligations.OneShotRun : Prop :=
  ∀ (s : State) (d : List Byte) (rest : List PortEvent), s.Inv → s.inReset = false →
    s.fault = 0#8 → s.tv = true → s.inputs = commandEvents (updateCommands d) ++ rest →
    ∃ t : State, core.run (d.length + 2) s = .next t ∧ t.inputs = rest ∧ t.fault = 0#8 ∧
      t.responses = s.responses ++ List.replicate (d.length + 1) (0#8 ++ 0#32) ++
        [0#8 ++ BitVec.ofNat 32 (update s.config d)] ∧
      update s.config d < 2 ^ 32

/-- R104 (b), R59: the words of `INCUPDATE r; d` likewise answer `IncUpdate(cfg, d, r)`. -/
def Obligations.IncrementalRun : Prop :=
  ∀ (s : State) (r : Word) (d : List Byte) (rest : List PortEvent), s.Inv → s.inReset = false →
    s.fault = 0#8 → s.tv = true → s.inputs = commandEvents (incUpdateCommands r d) ++ rest →
    ∃ t : State, core.run (d.length + 2) s = .next t ∧ t.inputs = rest ∧ t.fault = 0#8 ∧
      t.responses = s.responses ++ List.replicate (d.length + 1) (0#8 ++ 0#32) ++
        [0#8 ++ BitVec.ofNat 32 (incUpdate s.config d r.toNat)] ∧
      incUpdate s.config d r.toNat < 2 ^ 32

/-- R104 (c): a read command inserted anywhere in a sequence changes no later response and no later
state. -/
def Obligations.ReadsInsertedAnywhere : Prop :=
  ∀ (before after : List Instr) (r : Instr) (s u : State), isRead r = true →
    execAll before s = .next u → u.fault = 0#8 → u.tv = true → u.rv = true →
    ∃ (t : State) (d : Word) (out : List RspWord),
      execAll (before ++ after) s = .next t ∧ t.responses = u.responses ++ out ∧
      execAll (before ++ r :: after) s =
        .next { t with responses := u.responses ++ [0#8 ++ d] ++ out }

/-- R104 (d), R45: saving the register with `RDCRC`, running any commands of other streams (no reset,
no fault) and restoring it with `SEED` leaves the state as it was, so the stream goes on undisturbed. -/
def Obligations.InterleavedStreams : Prop :=
  ∀ (s : State) (others : List Instr), s.Inv → s.fault = 0#8 → s.rv = true → .rst ∉ others →
    ∃ t : State, execAll (.rdcrc :: others ++ [.seed s.crc]) s = .next t ∧
      (t.fault = 0#8 → ∃ out : List RspWord,
        t = { s with responses := s.responses ++ [0#8 ++ s.crc] ++ out })

/-! ### The command stream as an input -/

/-- R22: the command stream is an input of the step and no state, and no history is kept. The step is
`portEvent` of the next event, and that event acts on the architectural state of R10 alone: what it
does is what it does with no stream and no answers beside the engine. That a step takes its event off
`State.inputs` is the model's choice (assumption 1). -/
def Obligations.CommandsAreInputs : Prop :=
  (∀ (s : State) (e : PortEvent) (rest : List PortEvent), s.inputs = e :: rest →
    step s = portEvent e { s with inputs := rest }) ∧
  (∀ (e : PortEvent) (s : State), ∃ t : State,
    engineStep e s.toEngine s.inReset s.freeCount = .next t ∧ t.inputs = [] ∧
    portEvent e s = .next { t with
      inputs := s.inputs, responses := s.responses ++ t.responses })

/-- R22, R41: a run of the host's machine is the fold of the block's step over the stream as an input.
That the run finds the stream in `State.inputs` is the model's choice (assumption 1). -/
def Obligations.RunIsFeed : Prop :=
  ∀ (s : State) (es rest : List PortEvent), s.inputs = es ++ rest →
    ∃ t : State, feed es { s with inputs := [] } = .next t ∧
      core.run es.length s = .next { t with inputs := rest }
end

