-- ==== Sys2Proof/Laws/Datapath.lean ====
section
/-! SUPPORT. Masking: what `Mask` does to the operations the datapath is made of (R70, R81), and what
one division step depends on. -/

namespace Sys2Proof.Machine

theorem mask_lt (w v : Nat) : mask w v < 2 ^ w := Nat.mod_lt _ (Nat.two_pow_pos w)

theorem mask_of_lt {w v : Nat} (h : v < 2 ^ w) : mask w v = v := Nat.mod_eq_of_lt h

@[simp] theorem mask_mask (w v : Nat) : mask w (mask w v) = mask w v := Nat.mod_mod _ _

theorem mask_zero (w : Nat) : mask w 0 = 0 := Nat.zero_mod _

/-- `Mask` distributes over exclusive-or. -/
theorem mask_xor (w a b : Nat) : mask w (a ^^^ b) = mask w a ^^^ mask w b := Nat.xor_mod_two_pow

/-- A left shift may be masked before as well as after. -/
theorem mask_shiftLeft (w a k : Nat) : mask w (a <<< k) = mask w (mask w a <<< k) := by
  simp [mask, Nat.shiftLeft_eq, Nat.mod_mul_mod]

/-- The bits of a masked number. -/
theorem testBit_mask (w v j : Nat) : (mask w v).testBit j = (decide (j < w) && v.testBit j) := by
  simp [mask, Nat.testBit_mod_two_pow]

/-- The top bit of the register is inside the mask. -/
theorem testBit_top_mask {w : Nat} (hw : 0 < w) (v : Nat) :
    (mask w v).testBit (w - 1) = v.testBit (w - 1) := by
  simp [testBit_mask, hw]

/-- A table entry fits its width (R71). -/
theorem tableEntry_lt (p w : Nat) (i : Byte) : tableEntry p w i < 2 ^ w := mask_lt _ _

/-- A step's result fits the width (R73). -/
theorem crcStep_lt (T : Byte → Nat) (w r : Nat) (b : Byte) : crcStep T w r b < 2 ^ w := mask_lt _ _

theorem divSteps_succ (p w n a : Nat) :
    divSteps p w (n + 1) a = divSteps p w n (divStep p w a) := rfl

theorem rawFold_cons (T : Byte → Nat) (w a : Nat) (b : Byte) (rest : List Byte) :
    rawFold T w a (b :: rest) = rawFold T w (rawStep T w a b) rest := rfl

theorem rawFold_append (T : Byte → Nat) (w a : Nat) (x y : List Byte) :
    rawFold T w a (x ++ y) = rawFold T w (rawFold T w a x) y := by
  induction x generalizing a with
  | nil => rfl
  | cons b rest ih => exact ih (rawStep T w a b)

end Sys2Proof.Machine
end

