-- ==== Sys2Proof/Laws/Decode.lean ====
section
/-! SUPPORT. The fields of a command word put together from an opcode and an operand, the opcode map
as a two-way map, and the two views of the reserved-bit check. -/

namespace Sys2Proof

theorem extract_append_high {n m : Nat} (x : BitVec n) (y : BitVec m) :
    (x ++ y).extractLsb' m n = x := by
  ext k hk
  simp [BitVec.getLsbD_append, BitVec.getLsbD_eq_getElem hk]

theorem extract_append_low {n m : Nat} (x : BitVec n) (y : BitVec m) :
    (x ++ y).extractLsb' 0 m = y := by
  ext k hk
  simp [BitVec.getLsbD_append, hk]

theorem extract_append_extract (c : BitVec (8 + 32)) :
    c.extractLsb' 32 8 ++ c.extractLsb' 0 32 = c := by
  ext k hk
  simp only [BitVec.getElem_append, BitVec.getElem_extractLsb', Nat.zero_add]
  split
  · exact (BitVec.getLsbD_eq_getElem hk)
  · rw [Nat.add_sub_cancel' (by omega), BitVec.getLsbD_eq_getElem hk]

theorem zero_append {m : Nat} (n : Nat) (x : BitVec m) : 0#n ++ x = x.setWidth (n + m) := by
  apply BitVec.eq_of_toNat_eq
  have : x.toNat < 2 ^ (n + m) :=
    lt_of_lt_of_le x.isLt (Nat.pow_le_pow_right (by omega) (by omega))
  simp [BitVec.toNat_append, Nat.mod_eq_of_lt this]

/-- A byte operand under zero reserved bits is the byte zero-extended (R51). -/
theorem zero_append_byte (b : Byte) : (0#24 ++ b : Word) = b.setWidth 32 := zero_append 24 b

/-- A preset index under zero reserved bits is the index zero-extended (R51). -/
theorem zero_append_index (n : BitVec 2) : (0#30 ++ n : Word) = n.setWidth 32 := zero_append 30 n

/-- The low bits of a zero-extended field are the field. -/
@[simp] theorem extract_setWidth_byte (b : Byte) : (b.setWidth 32).extractLsb' 0 8 = b := by
  rw [← zero_append_byte]
  exact extract_append_low _ _

/-- The low bits of a zero-extended field are the field. -/
@[simp] theorem extract_setWidth_index (n : BitVec 2) :
    (n.setWidth 32).extractLsb' 0 2 = n := by
  rw [← zero_append_index]
  exact extract_append_low _ _

/-- The opcode of `{opcode, op}` (R50). -/
@[simp] theorem opcodeField_append (o : Byte) (op : Word) : opcodeField (o ++ op) = o :=
  extract_append_high o op

/-- The operand of `{opcode, op}` (R50). -/
@[simp] theorem operandField_append (o : Byte) (op : Word) : operandField (o ++ op) = op :=
  extract_append_low o op

/-- A command word is its two fields (R50). -/
theorem append_fields (c : CmdWord) : opcodeField c ++ operandField c = c :=
  extract_append_extract c

/-- Every mnemonic's opcode selects its own row. -/
@[simp] theorem mnemonicOf_opcodeOf (m : Mnemonic) : mnemonicOf? (opcodeOf m) = some m := by
  cases m <;> decide

/-- An opcode that selects a row is that row's opcode. -/
theorem opcodeOf_of_mnemonicOf {o : Byte} {m : Mnemonic} (h : mnemonicOf? o = some m) :
    opcodeOf m = o := by
  simpa using List.find?_some h

/-- The bits from `k` up are all 0 exactly when the number is below `2^k`. -/
theorem and_high_eq_zero (op : Word) (k : Nat) :
    op &&& (BitVec.allOnes 32 <<< k) = 0 ↔ op.toNat < 2 ^ k := by
  constructor
  · intro h
    refine Nat.lt_pow_two_of_testBit _ fun j hj => ?_
    rcases lt_or_ge j 32 with h32 | h32
    · have := congrArg (fun v => v.getLsbD j) h
      simp only [BitVec.getLsbD_and, BitVec.getLsbD_shiftLeft, BitVec.getLsbD_allOnes, h32,
        show ¬ j < k by omega, show j - k < 32 by omega] at this
      simpa [BitVec.getLsbD] using this
    · exact Nat.testBit_lt_two_pow
        (lt_of_lt_of_le op.isLt (Nat.pow_le_pow_right (by omega) h32))
  · intro h
    ext j hj
    rcases lt_or_ge j k with hk | hk
    · simp [hk]
    · have : op.getLsbD j = false := Nat.testBit_lt_two_pow
        (lt_of_lt_of_le h (Nat.pow_le_pow_right (by omega) hk))
      simp [← BitVec.getLsbD_eq_getElem, this]

/-- The reserved-bit check on the bits is the check on the value (R51, R55). -/
theorem reservedZero_eq_admits (f : Format) (op : Word) : reservedZero f op = f.admits op := by
  have h0 := and_high_eq_zero op 0
  have h2 := and_high_eq_zero op 2
  have h8 := and_high_eq_zero op 8
  cases f with
  | z => exact Bool.eq_iff_iff.mpr (by simpa [reservedZero, reservedMask, Format.admits] using h0)
  | i => simp [reservedZero, reservedMask, Format.admits]
  | b => exact Bool.eq_iff_iff.mpr (by simpa [reservedZero, reservedMask, Format.admits] using h8)
  | n => exact Bool.eq_iff_iff.mpr (by simpa [reservedZero, reservedMask, Format.admits] using h2)

/-- What a word with a row's opcode decodes to. -/
theorem decode_append (m : Mnemonic) (op : Word) : decode (opcodeOf m ++ op) =
    if m.format.admits op then .ok (buildInstr m op) else .error (.reservedBits m) := by
  simp [decode, reservedZero_eq_admits]

/-- What a word with an opcode of no row decodes to. -/
theorem decode_illegal {o : Byte} (h : mnemonicOf? o = none) (op : Word) :
    decode (o ++ op) = .error (.illegalOpcode o) := by
  simp [decode, h]

/-- The instruction built from a row and an operand it admits has that row and that operand. -/
theorem buildInstr_fields {m : Mnemonic} {op : Word} (h : m.format.admits op = true) :
    (buildInstr m op).mnemonic = m ∧ (buildInstr m op).operand = op := by
  cases m <;> refine ⟨rfl, BitVec.eq_of_toNat_eq ?_⟩ <;>
    simp_all [buildInstr, Instr.operand, Mnemonic.format, Format.admits] <;> omega

/-- Everything a word that decodes can be. -/
theorem decode_ok {c : CmdWord} {i : Instr} (h : decode c = .ok i) :
    ∃ m, opcodeField c = opcodeOf m ∧ m.format.admits (operandField c) = true ∧
      i = buildInstr m (operandField c) := by
  simp only [decode] at h
  split at h
  · cases h
  · rename_i m hm
    split at h
    · rename_i hr
      rw [reservedZero_eq_admits] at hr
      exact ⟨m, (opcodeOf_of_mnemonicOf hm).symm, hr, by cases h; rfl⟩
    · cases h

end Sys2Proof
end

