-- ==== Sys2Proof/Laws/State.lean ====
section
/-! SUPPORT. One lemma per field per named update of the state, so that no later proof unfolds a record
update. -/

namespace Sys2Proof.Machine

variable (s : State)

@[simp] theorem respondCode_poly (c : Byte) (d : Word) : (respondCode c d s).poly = s.poly := rfl
@[simp] theorem respondCode_width (c : Byte) (d : Word) : (respondCode c d s).width = s.width := rfl
@[simp] theorem respondCode_init (c : Byte) (d : Word) : (respondCode c d s).init = s.init := rfl
@[simp] theorem respondCode_table (c : Byte) (d : Word) : (respondCode c d s).table = s.table := rfl
@[simp] theorem respondCode_tv (c : Byte) (d : Word) : (respondCode c d s).tv = s.tv := rfl
@[simp] theorem respondCode_crc (c : Byte) (d : Word) : (respondCode c d s).crc = s.crc := rfl
@[simp] theorem respondCode_rv (c : Byte) (d : Word) : (respondCode c d s).rv = s.rv := rfl
@[simp] theorem respondCode_fault (c : Byte) (d : Word) : (respondCode c d s).fault = s.fault := rfl
@[simp] theorem respondCode_inReset (c : Byte) (d : Word) :
    (respondCode c d s).inReset = s.inReset :=
  rfl
@[simp] theorem respondCode_inputs (c : Byte) (d : Word) : (respondCode c d s).inputs = s.inputs :=
  rfl
@[simp] theorem respondCode_responses (c : Byte) (d : Word) :
    (respondCode c d s).responses = s.responses ++ [c ++ d] :=
  rfl
@[simp] theorem respondCode_freeCount (c : Byte) (d : Word) :
    (respondCode c d s).freeCount = s.freeCount :=
  rfl

@[simp] theorem respond_poly (st : Status) (d : Word) : (respond st d s).poly = s.poly := rfl
@[simp] theorem respond_width (st : Status) (d : Word) : (respond st d s).width = s.width := rfl
@[simp] theorem respond_init (st : Status) (d : Word) : (respond st d s).init = s.init := rfl
@[simp] theorem respond_table (st : Status) (d : Word) : (respond st d s).table = s.table := rfl
@[simp] theorem respond_tv (st : Status) (d : Word) : (respond st d s).tv = s.tv := rfl
@[simp] theorem respond_crc (st : Status) (d : Word) : (respond st d s).crc = s.crc := rfl
@[simp] theorem respond_rv (st : Status) (d : Word) : (respond st d s).rv = s.rv := rfl
@[simp] theorem respond_fault (st : Status) (d : Word) : (respond st d s).fault = s.fault := rfl
@[simp] theorem respond_inReset (st : Status) (d : Word) : (respond st d s).inReset = s.inReset :=
  rfl
@[simp] theorem respond_inputs (st : Status) (d : Word) : (respond st d s).inputs = s.inputs := rfl
@[simp] theorem respond_responses (st : Status) (d : Word) :
    (respond st d s).responses = s.responses ++ [statusCode st ++ d] :=
  rfl
@[simp] theorem respond_freeCount (st : Status) (d : Word) :
    (respond st d s).freeCount = s.freeCount :=
  rfl

@[simp] theorem setFault_poly (e : FaultKind) : (setFault e s).poly = s.poly := rfl
@[simp] theorem setFault_width (e : FaultKind) : (setFault e s).width = s.width := rfl
@[simp] theorem setFault_init (e : FaultKind) : (setFault e s).init = s.init := rfl
@[simp] theorem setFault_table (e : FaultKind) : (setFault e s).table = s.table := rfl
@[simp] theorem setFault_tv (e : FaultKind) : (setFault e s).tv = s.tv := rfl
@[simp] theorem setFault_crc (e : FaultKind) : (setFault e s).crc = s.crc := rfl
@[simp] theorem setFault_rv (e : FaultKind) : (setFault e s).rv = s.rv := rfl
@[simp] theorem setFault_fault (e : FaultKind) : (setFault e s).fault = faultCode e := rfl
@[simp] theorem setFault_inReset (e : FaultKind) : (setFault e s).inReset = s.inReset := rfl
@[simp] theorem setFault_inputs (e : FaultKind) : (setFault e s).inputs = s.inputs := rfl
@[simp] theorem setFault_responses (e : FaultKind) : (setFault e s).responses = s.responses := rfl
@[simp] theorem setFault_freeCount (e : FaultKind) : (setFault e s).freeCount = s.freeCount := rfl

@[simp] theorem raise_poly (e : FaultKind) : (raise e s).poly = s.poly := rfl
@[simp] theorem raise_width (e : FaultKind) : (raise e s).width = s.width := rfl
@[simp] theorem raise_init (e : FaultKind) : (raise e s).init = s.init := rfl
@[simp] theorem raise_table (e : FaultKind) : (raise e s).table = s.table := rfl
@[simp] theorem raise_tv (e : FaultKind) : (raise e s).tv = s.tv := rfl
@[simp] theorem raise_crc (e : FaultKind) : (raise e s).crc = s.crc := rfl
@[simp] theorem raise_rv (e : FaultKind) : (raise e s).rv = s.rv := rfl
@[simp] theorem raise_fault (e : FaultKind) : (raise e s).fault = faultCode e := rfl
@[simp] theorem raise_inReset (e : FaultKind) : (raise e s).inReset = s.inReset := rfl
@[simp] theorem raise_inputs (e : FaultKind) : (raise e s).inputs = s.inputs := rfl
@[simp] theorem raise_responses (e : FaultKind) :
    (raise e s).responses = s.responses ++ [faultCode e ++ 0#32] :=
  rfl
@[simp] theorem raise_freeCount (e : FaultKind) : (raise e s).freeCount = s.freeCount := rfl

@[simp] theorem echoFault_poly : (echoFault s).poly = s.poly := rfl
@[simp] theorem echoFault_width : (echoFault s).width = s.width := rfl
@[simp] theorem echoFault_init : (echoFault s).init = s.init := rfl
@[simp] theorem echoFault_table : (echoFault s).table = s.table := rfl
@[simp] theorem echoFault_tv : (echoFault s).tv = s.tv := rfl
@[simp] theorem echoFault_crc : (echoFault s).crc = s.crc := rfl
@[simp] theorem echoFault_rv : (echoFault s).rv = s.rv := rfl
@[simp] theorem echoFault_fault : (echoFault s).fault = s.fault := rfl
@[simp] theorem echoFault_inReset : (echoFault s).inReset = s.inReset := rfl
@[simp] theorem echoFault_inputs : (echoFault s).inputs = s.inputs := rfl
@[simp] theorem echoFault_responses : (echoFault s).responses = s.responses ++ [s.fault ++ 0#32] :=
  rfl
@[simp] theorem echoFault_freeCount : (echoFault s).freeCount = s.freeCount := rfl

@[simp] theorem setPoly_poly (v : Word) : (setPoly v s).poly = v := rfl
@[simp] theorem setPoly_width (v : Word) : (setPoly v s).width = s.width := rfl
@[simp] theorem setPoly_init (v : Word) : (setPoly v s).init = s.init := rfl
@[simp] theorem setPoly_table (v : Word) : (setPoly v s).table = s.table := rfl
@[simp] theorem setPoly_tv (v : Word) : (setPoly v s).tv = s.tv := rfl
@[simp] theorem setPoly_crc (v : Word) : (setPoly v s).crc = s.crc := rfl
@[simp] theorem setPoly_rv (v : Word) : (setPoly v s).rv = s.rv := rfl
@[simp] theorem setPoly_fault (v : Word) : (setPoly v s).fault = s.fault := rfl
@[simp] theorem setPoly_inReset (v : Word) : (setPoly v s).inReset = s.inReset := rfl
@[simp] theorem setPoly_inputs (v : Word) : (setPoly v s).inputs = s.inputs := rfl
@[simp] theorem setPoly_responses (v : Word) : (setPoly v s).responses = s.responses := rfl
@[simp] theorem setPoly_freeCount (v : Word) : (setPoly v s).freeCount = s.freeCount := rfl

@[simp] theorem setWidth_poly (v : Word) : (setWidth v s).poly = s.poly := rfl
@[simp] theorem setWidth_width (v : Word) : (setWidth v s).width = v := rfl
@[simp] theorem setWidth_init (v : Word) : (setWidth v s).init = s.init := rfl
@[simp] theorem setWidth_table (v : Word) : (setWidth v s).table = s.table := rfl
@[simp] theorem setWidth_tv (v : Word) : (setWidth v s).tv = s.tv := rfl
@[simp] theorem setWidth_crc (v : Word) : (setWidth v s).crc = s.crc := rfl
@[simp] theorem setWidth_rv (v : Word) : (setWidth v s).rv = s.rv := rfl
@[simp] theorem setWidth_fault (v : Word) : (setWidth v s).fault = s.fault := rfl
@[simp] theorem setWidth_inReset (v : Word) : (setWidth v s).inReset = s.inReset := rfl
@[simp] theorem setWidth_inputs (v : Word) : (setWidth v s).inputs = s.inputs := rfl
@[simp] theorem setWidth_responses (v : Word) : (setWidth v s).responses = s.responses := rfl
@[simp] theorem setWidth_freeCount (v : Word) : (setWidth v s).freeCount = s.freeCount := rfl

@[simp] theorem setInit_poly (v : Word) : (setInit v s).poly = s.poly := rfl
@[simp] theorem setInit_width (v : Word) : (setInit v s).width = s.width := rfl
@[simp] theorem setInit_init (v : Word) : (setInit v s).init = v := rfl
@[simp] theorem setInit_table (v : Word) : (setInit v s).table = s.table := rfl
@[simp] theorem setInit_tv (v : Word) : (setInit v s).tv = s.tv := rfl
@[simp] theorem setInit_crc (v : Word) : (setInit v s).crc = s.crc := rfl
@[simp] theorem setInit_rv (v : Word) : (setInit v s).rv = s.rv := rfl
@[simp] theorem setInit_fault (v : Word) : (setInit v s).fault = s.fault := rfl
@[simp] theorem setInit_inReset (v : Word) : (setInit v s).inReset = s.inReset := rfl
@[simp] theorem setInit_inputs (v : Word) : (setInit v s).inputs = s.inputs := rfl
@[simp] theorem setInit_responses (v : Word) : (setInit v s).responses = s.responses := rfl
@[simp] theorem setInit_freeCount (v : Word) : (setInit v s).freeCount = s.freeCount := rfl

@[simp] theorem generate_poly : (generate s).poly = s.poly := rfl
@[simp] theorem generate_width : (generate s).width = s.width := rfl
@[simp] theorem generate_init : (generate s).init = s.init := rfl
@[simp] theorem generate_table : (generate s).table = generatedTable s.poly s.width := rfl
@[simp] theorem generate_tv : (generate s).tv = true := rfl
@[simp] theorem generate_crc : (generate s).crc = s.crc := rfl
@[simp] theorem generate_rv : (generate s).rv = s.rv := rfl
@[simp] theorem generate_fault : (generate s).fault = s.fault := rfl
@[simp] theorem generate_inReset : (generate s).inReset = s.inReset := rfl
@[simp] theorem generate_inputs : (generate s).inputs = s.inputs := rfl
@[simp] theorem generate_responses : (generate s).responses = s.responses := rfl
@[simp] theorem generate_freeCount : (generate s).freeCount = s.freeCount := rfl

@[simp] theorem loadPreset_poly (n : BitVec 2) : (loadPreset n s).poly = (presetRom n).1 := rfl
@[simp] theorem loadPreset_width (n : BitVec 2) : (loadPreset n s).width = (presetRom n).2.1 := rfl
@[simp] theorem loadPreset_init (n : BitVec 2) : (loadPreset n s).init = (presetRom n).2.2 := rfl
@[simp] theorem loadPreset_table (n : BitVec 2) :
    (loadPreset n s).table = generatedTable (presetRom n).1 (presetRom n).2.1 :=
  rfl
@[simp] theorem loadPreset_tv (n : BitVec 2) : (loadPreset n s).tv = true := rfl
@[simp] theorem loadPreset_crc (n : BitVec 2) : (loadPreset n s).crc = s.crc := rfl
@[simp] theorem loadPreset_rv (n : BitVec 2) : (loadPreset n s).rv = s.rv := rfl
@[simp] theorem loadPreset_fault (n : BitVec 2) : (loadPreset n s).fault = s.fault := rfl
@[simp] theorem loadPreset_inReset (n : BitVec 2) : (loadPreset n s).inReset = s.inReset := rfl
@[simp] theorem loadPreset_inputs (n : BitVec 2) : (loadPreset n s).inputs = s.inputs := rfl
@[simp] theorem loadPreset_responses (n : BitVec 2) : (loadPreset n s).responses = s.responses :=
  rfl
@[simp] theorem loadPreset_freeCount (n : BitVec 2) : (loadPreset n s).freeCount = s.freeCount :=
  rfl

@[simp] theorem setCrc_poly (v : Word) : (setCrc v s).poly = s.poly := rfl
@[simp] theorem setCrc_width (v : Word) : (setCrc v s).width = s.width := rfl
@[simp] theorem setCrc_init (v : Word) : (setCrc v s).init = s.init := rfl
@[simp] theorem setCrc_table (v : Word) : (setCrc v s).table = s.table := rfl
@[simp] theorem setCrc_tv (v : Word) : (setCrc v s).tv = s.tv := rfl
@[simp] theorem setCrc_crc (v : Word) : (setCrc v s).crc = v := rfl
@[simp] theorem setCrc_rv (v : Word) : (setCrc v s).rv = s.rv := rfl
@[simp] theorem setCrc_fault (v : Word) : (setCrc v s).fault = s.fault := rfl
@[simp] theorem setCrc_inReset (v : Word) : (setCrc v s).inReset = s.inReset := rfl
@[simp] theorem setCrc_inputs (v : Word) : (setCrc v s).inputs = s.inputs := rfl
@[simp] theorem setCrc_responses (v : Word) : (setCrc v s).responses = s.responses := rfl
@[simp] theorem setCrc_freeCount (v : Word) : (setCrc v s).freeCount = s.freeCount := rfl

@[simp] theorem seedCrc_poly (v : Word) : (seedCrc v s).poly = s.poly := rfl
@[simp] theorem seedCrc_width (v : Word) : (seedCrc v s).width = s.width := rfl
@[simp] theorem seedCrc_init (v : Word) : (seedCrc v s).init = s.init := rfl
@[simp] theorem seedCrc_table (v : Word) : (seedCrc v s).table = s.table := rfl
@[simp] theorem seedCrc_tv (v : Word) : (seedCrc v s).tv = s.tv := rfl
@[simp] theorem seedCrc_crc (v : Word) : (seedCrc v s).crc = BitVec.ofNat 32 (mask s.w v.toNat) :=
  rfl
@[simp] theorem seedCrc_rv (v : Word) : (seedCrc v s).rv = true := rfl
@[simp] theorem seedCrc_fault (v : Word) : (seedCrc v s).fault = s.fault := rfl
@[simp] theorem seedCrc_inReset (v : Word) : (seedCrc v s).inReset = s.inReset := rfl
@[simp] theorem seedCrc_inputs (v : Word) : (seedCrc v s).inputs = s.inputs := rfl
@[simp] theorem seedCrc_responses (v : Word) : (seedCrc v s).responses = s.responses := rfl
@[simp] theorem seedCrc_freeCount (v : Word) : (seedCrc v s).freeCount = s.freeCount := rfl

@[simp] theorem stepCrc_poly (b : Byte) : (stepCrc b s).poly = s.poly := rfl
@[simp] theorem stepCrc_width (b : Byte) : (stepCrc b s).width = s.width := rfl
@[simp] theorem stepCrc_init (b : Byte) : (stepCrc b s).init = s.init := rfl
@[simp] theorem stepCrc_table (b : Byte) : (stepCrc b s).table = s.table := rfl
@[simp] theorem stepCrc_tv (b : Byte) : (stepCrc b s).tv = s.tv := rfl
@[simp] theorem stepCrc_crc (b : Byte) :
    (stepCrc b s).crc = BitVec.ofNat 32 (crcStep (tableNat s.table) s.w s.crc.toNat b) :=
  rfl
@[simp] theorem stepCrc_rv (b : Byte) : (stepCrc b s).rv = s.rv := rfl
@[simp] theorem stepCrc_fault (b : Byte) : (stepCrc b s).fault = s.fault := rfl
@[simp] theorem stepCrc_inReset (b : Byte) : (stepCrc b s).inReset = s.inReset := rfl
@[simp] theorem stepCrc_inputs (b : Byte) : (stepCrc b s).inputs = s.inputs := rfl
@[simp] theorem stepCrc_responses (b : Byte) : (stepCrc b s).responses = s.responses := rfl
@[simp] theorem stepCrc_freeCount (b : Byte) : (stepCrc b s).freeCount = s.freeCount := rfl

@[simp] theorem enterReset_poly : (enterReset s).poly = 0 := rfl
@[simp] theorem enterReset_width : (enterReset s).width = 0 := rfl
@[simp] theorem enterReset_init : (enterReset s).init = 0 := rfl
@[simp] theorem enterReset_table : (enterReset s).table = tableOf (Config.freeEntry s.freeCount) :=
  rfl
@[simp] theorem enterReset_tv : (enterReset s).tv = false := rfl
@[simp] theorem enterReset_crc : (enterReset s).crc = Config.freeCrc s.freeCount := rfl
@[simp] theorem enterReset_rv : (enterReset s).rv = false := rfl
@[simp] theorem enterReset_fault : (enterReset s).fault = 0#8 := rfl
@[simp] theorem enterReset_inReset : (enterReset s).inReset = s.inReset := rfl
@[simp] theorem enterReset_inputs : (enterReset s).inputs = s.inputs := rfl
@[simp] theorem enterReset_responses : (enterReset s).responses = s.responses := rfl
@[simp] theorem enterReset_freeCount : (enterReset s).freeCount = s.freeCount + 1 := rfl

@[simp] theorem holdReset_poly (h : Bool) : (holdReset h s).poly = s.poly := rfl
@[simp] theorem holdReset_width (h : Bool) : (holdReset h s).width = s.width := rfl
@[simp] theorem holdReset_init (h : Bool) : (holdReset h s).init = s.init := rfl
@[simp] theorem holdReset_table (h : Bool) : (holdReset h s).table = s.table := rfl
@[simp] theorem holdReset_tv (h : Bool) : (holdReset h s).tv = s.tv := rfl
@[simp] theorem holdReset_crc (h : Bool) : (holdReset h s).crc = s.crc := rfl
@[simp] theorem holdReset_rv (h : Bool) : (holdReset h s).rv = s.rv := rfl
@[simp] theorem holdReset_fault (h : Bool) : (holdReset h s).fault = s.fault := rfl
@[simp] theorem holdReset_inReset (h : Bool) : (holdReset h s).inReset = h := rfl
@[simp] theorem holdReset_inputs (h : Bool) : (holdReset h s).inputs = s.inputs := rfl
@[simp] theorem holdReset_responses (h : Bool) : (holdReset h s).responses = s.responses := rfl
@[simp] theorem holdReset_freeCount (h : Bool) : (holdReset h s).freeCount = s.freeCount := rfl

@[simp] theorem setInputs_poly (l : List PortEvent) : (setInputs l s).poly = s.poly := rfl
@[simp] theorem setInputs_width (l : List PortEvent) : (setInputs l s).width = s.width := rfl
@[simp] theorem setInputs_init (l : List PortEvent) : (setInputs l s).init = s.init := rfl
@[simp] theorem setInputs_table (l : List PortEvent) : (setInputs l s).table = s.table := rfl
@[simp] theorem setInputs_tv (l : List PortEvent) : (setInputs l s).tv = s.tv := rfl
@[simp] theorem setInputs_crc (l : List PortEvent) : (setInputs l s).crc = s.crc := rfl
@[simp] theorem setInputs_rv (l : List PortEvent) : (setInputs l s).rv = s.rv := rfl
@[simp] theorem setInputs_fault (l : List PortEvent) : (setInputs l s).fault = s.fault := rfl
@[simp] theorem setInputs_inReset (l : List PortEvent) : (setInputs l s).inReset = s.inReset := rfl
@[simp] theorem setInputs_inputs (l : List PortEvent) : (setInputs l s).inputs = l := rfl
@[simp] theorem setInputs_responses (l : List PortEvent) :
    (setInputs l s).responses = s.responses :=
  rfl
@[simp] theorem setInputs_freeCount (l : List PortEvent) :
    (setInputs l s).freeCount = s.freeCount :=
  rfl

@[simp] theorem present_poly (c : CmdWord) : (present c s).poly = s.poly := rfl
@[simp] theorem present_width (c : CmdWord) : (present c s).width = s.width := rfl
@[simp] theorem present_init (c : CmdWord) : (present c s).init = s.init := rfl
@[simp] theorem present_table (c : CmdWord) : (present c s).table = s.table := rfl
@[simp] theorem present_tv (c : CmdWord) : (present c s).tv = s.tv := rfl
@[simp] theorem present_crc (c : CmdWord) : (present c s).crc = s.crc := rfl
@[simp] theorem present_rv (c : CmdWord) : (present c s).rv = s.rv := rfl
@[simp] theorem present_fault (c : CmdWord) : (present c s).fault = s.fault := rfl
@[simp] theorem present_inReset (c : CmdWord) : (present c s).inReset = false := rfl
@[simp] theorem present_inputs (c : CmdWord) : (present c s).inputs = .command c :: s.inputs := rfl
@[simp] theorem present_responses (c : CmdWord) : (present c s).responses = s.responses := rfl
@[simp] theorem present_freeCount (c : CmdWord) : (present c s).freeCount = s.freeCount := rfl

@[simp] theorem readPoly_eq : readPoly s = s.poly := rfl
@[simp] theorem readWidth_eq : readWidth s = s.width := rfl
@[simp] theorem readInit_eq : readInit s = s.init := rfl
@[simp] theorem readCrc_eq : readCrc s = s.crc := rfl

/-- Two states with equal fields are equal. -/
theorem state_eq {s t : State} (h1 : s.poly = t.poly) (h2 : s.width = t.width) (h3 : s.init = t.init)
    (h4 : s.table = t.table) (h5 : s.tv = t.tv) (h6 : s.crc = t.crc) (h7 : s.rv = t.rv)
    (h8 : s.fault = t.fault) (h9 : s.inReset = t.inReset) (h10 : s.inputs = t.inputs)
    (h11 : s.responses = t.responses) (h12 : s.freeCount = t.freeCount) : s = t := by
  obtain ⟨⟨⟩, _, _, _, _⟩ := s
  obtain ⟨⟨⟩, _, _, _, _⟩ := t
  simp_all

end Sys2Proof.Machine
end

