-- ==== Sys2Proof/Laws/Table.lean ====
section
/-! SUPPORT. The table memory: a table written by a function reads back as that function, and a table
is its 256 entries. -/

namespace Sys2Proof.Machine

/-- Reading back what was written. -/
@[simp] theorem readEntry_tableOf (f : Byte → Word) (i : Byte) : readEntry (tableOf f) i = f i := by
  simp [readEntry, tableOf]

/-- Two tables with equal entries are equal. -/
theorem table_ext {t u : Table} (h : ∀ i, readEntry t i = readEntry u i) : t = u := by
  obtain ⟨l, hl⟩ := t
  obtain ⟨m, hm⟩ := u
  simp only [Config.tableEntries] at hl hm
  have : l = m := by
    apply List.ext_getElem (by omega)
    intro k hk _
    have := h (BitVec.ofNat 8 k)
    simpa [readEntry, Nat.mod_eq_of_lt (show k < 256 by omega)] using this
  subst this
  rfl

/-- The table as a function to naturals. -/
@[simp] theorem tableNat_tableOf (f : Byte → Word) (i : Byte) :
    tableNat (tableOf f) i = (f i).toNat := by
  simp [tableNat]

end Sys2Proof.Machine
end

