-- ==== Sys2Proof/Laws/Ops.lean ====
section
/-! SUPPORT. One lemma per shared operation that says everything it can do: the execution skeleton of
R127, the checks, the generated table. Proofs cite these instead of unfolding the operations. -/

namespace Sys2Proof.Machine

/-- While Faulted the skeleton answers with the latched code (R128). -/
theorem answer_faulted {check : State → Option FaultKind} {effect : State → State}
    {data : State → Word} {s : State} (h : s.fault ≠ 0#8) :
    answer check effect data s = .next (echoFault s) := if_pos h

/-- A check that fails raises its fault and nothing else (R123). -/
theorem answer_raises {check : State → Option FaultKind} {effect : State → State}
    {data : State → Word} {s : State} {e : FaultKind} (h : s.fault = 0#8) (hc : check s = some e) :
    answer check effect data s = .next (raise e s) := by
  simp [answer, h, hc]

/-- When no check fails the command executes (R127 step 7). -/
theorem answer_executes {check : State → Option FaultKind} {effect : State → State}
    {data : State → Word} {s : State} (h : s.fault = 0#8) (hc : check s = none) :
    answer check effect data s = .next (respond .ok (data s) (effect s)) := by
  simp [answer, h, hc]

/-- Everything the skeleton can do. -/
theorem answer_cases {check : State → Option FaultKind} {effect : State → State}
    {data : State → Word} {s t : State} (h : answer check effect data s = .next t) :
    (s.fault ≠ 0#8 ∧ t = echoFault s) ∨
    (s.fault = 0#8 ∧ ∃ e, check s = some e ∧ t = raise e s) ∨
    (s.fault = 0#8 ∧ check s = none ∧ t = respond .ok (data s) (effect s)) := by
  by_cases hf : s.fault = 0#8
  · cases hc : check s with
    | some e =>
      rw [answer_raises hf hc] at h
      exact .inr (.inl ⟨hf, e, rfl, by simpa using h.symm⟩)
    | none =>
      rw [answer_executes hf hc] at h
      exact .inr (.inr ⟨hf, rfl, by simpa using h.symm⟩)
  · rw [answer_faulted hf] at h
    exact .inl ⟨hf, by simpa using h.symm⟩

/-- The skeleton always answers a next state. -/
theorem answer_next (check : State → Option FaultKind) (effect : State → State)
    (data : State → Word) (s : State) : ∃ t, answer check effect data s = .next t := by
  by_cases hf : s.fault = 0#8
  · cases hc : check s with
    | some e => exact ⟨_, answer_raises hf hc⟩
    | none => exact ⟨_, answer_executes hf hc⟩
  · exact ⟨_, answer_faulted hf⟩

@[simp] theorem lockedCheck_none {s : State} : lockedCheck s = none ↔ s.tv = false := by
  cases h : s.tv <;> simp [lockedCheck, h]

@[simp] theorem lockedCheck_some {s : State} {e : FaultKind} :
    lockedCheck s = some e ↔ s.tv = true ∧ e = .configLocked := by
  cases h : s.tv <;> simp [lockedCheck, h, eq_comm]

@[simp] theorem tableCheck_none {s : State} : tableCheck s = none ↔ s.tv = true := by
  cases h : s.tv <;> simp [tableCheck, h]

@[simp] theorem tableCheck_some {s : State} {e : FaultKind} :
    tableCheck s = some e ↔ s.tv = false ∧ e = .tableNotValid := by
  cases h : s.tv <;> simp [tableCheck, h, eq_comm]

@[simp] theorem seededCheck_none {s : State} :
    seededCheck s = none ↔ s.tv = true ∧ s.rv = true := by
  cases h : s.tv <;> cases h' : s.rv <;> simp [seededCheck, tableCheck, h, h']

@[simp] theorem seededCheck_some {s : State} {e : FaultKind} :
    seededCheck s = some e ↔
      (s.tv = false ∧ e = .tableNotValid) ∨ (s.tv = true ∧ s.rv = false ∧ e = .notSeeded) := by
  cases h : s.tv <;> cases h' : s.rv <;> simp [seededCheck, tableCheck, h, h', eq_comm]

@[simp] theorem generateCheck_none {s : State} :
    generateCheck s = none ↔ s.tv = false ∧ legalWidth s = true := by
  cases h : s.tv <;> cases h' : legalWidth s <;> simp [generateCheck, lockedCheck, h, h']

@[simp] theorem generateCheck_some {s : State} {e : FaultKind} :
    generateCheck s = some e ↔ (s.tv = true ∧ e = .configLocked) ∨
      (s.tv = false ∧ legalWidth s = false ∧ e = .invalidConfig) := by
  cases h : s.tv <;> cases h' : legalWidth s <;>
    simp [generateCheck, lockedCheck, h, h', eq_comm]

@[simp] theorem noCheck_none {s : State} : noCheck s = none := rfl

/-- The legal widths (R121). -/
theorem legalWidth_iff {s : State} :
    legalWidth s = true ↔ s.width.toNat = 8 ∨ s.width.toNat = 16 ∨ s.width.toNat = 32 := by
  simp [legalWidth, Config.legalWidths, State.w]

/-- The generated table holds the entries of R71 when the width fits the storage (R30). -/
theorem generatedTable_entry {p w : Word} (h : w.toNat ≤ 32) (i : Byte) :
    (readEntry (generatedTable p w) i).toNat = tableEntry p.toNat w.toNat i := by
  have hlt := tableEntry_lt p.toNat w.toNat i
  have := Nat.pow_le_pow_right (n := 2) (by omega) h
  simp only [generatedTable, readEntry_tableOf, BitVec.toNat_ofNat]
  exact Nat.mod_eq_of_lt (by omega)

/-- Every preset has a legal width (R33, R94). -/
theorem presetRom_width (n : BitVec 2) :
    (presetRom n).2.1.toNat = 8 ∨ (presetRom n).2.1.toNat = 16 ∨ (presetRom n).2.1.toNat = 32 := by
  revert n; decide

/-- A word that is no command: the echo or `E_ILLEGAL_COMMAND` (R124, R128). -/
theorem illegalCommand_eq (s : State) : illegalCommand s =
    if s.fault = 0#8 then raise .illegalCommand s else echoFault s := by
  simp [illegalCommand]

end Sys2Proof.Machine
end

