-- ==== Sys2Proof/Laws/PerInstr.lean ====
section
/-! SUPPORT. The family `Fields`: the two fields of an instruction's word are its row's opcode and its
operand, and its operand fits its format (R50, R51, R53, R55). -/

namespace Sys2Proof.Laws.Fields

/-- What the family says of an instruction. -/
def Statement (i : Instr) : Prop :=
  opcodeField (encode i) = opcodeOf i.mnemonic ∧ operandField (encode i) = i.operand ∧
    i.WellFormed = true

/-- The fields of every word are those put together by the encoder. -/
theorem of_wellFormed {i : Instr} (h : i.WellFormed = true) : Statement i :=
  ⟨by simp [encode, encodeRaw, Instr.raw], by simp [encode, encodeRaw, Instr.raw], h⟩

/-- A byte operand fits its format. -/
theorem byte_admitted (b : Byte) : Format.b.admits (b.setWidth 32) = true := by
  have := b.isLt
  simp [Format.admits]
  omega

theorem setpoly (imm : Word) : Statement (.setpoly imm) := of_wellFormed rfl
theorem setwidth (imm : Word) : Statement (.setwidth imm) := of_wellFormed rfl
theorem setinit (imm : Word) : Statement (.setinit imm) := of_wellFormed rfl
theorem gen : Statement .gen := of_wellFormed rfl
theorem preset (n : BitVec 2) : Statement (.preset n) := of_wellFormed (by revert n; decide)
theorem ldinit : Statement .ldinit := of_wellFormed rfl
theorem seed (imm : Word) : Statement (.seed imm) := of_wellFormed rfl
theorem byte (b : Byte) : Statement (.byte b) := of_wellFormed (byte_admitted b)
theorem rdcrc : Statement .rdcrc := of_wellFormed rfl
theorem rdtbl (b : Byte) : Statement (.rdtbl b) := of_wellFormed (byte_admitted b)
theorem rdpoly : Statement .rdpoly := of_wellFormed rfl
theorem rdwidth : Statement .rdwidth := of_wellFormed rfl
theorem rdinit : Statement .rdinit := of_wellFormed rfl
theorem rdstat : Statement .rdstat := of_wellFormed rfl
theorem rst : Statement .rst := of_wellFormed rfl

end Sys2Proof.Laws.Fields
end

