-- ==== Sys2Proof/Laws/Step.lean ====
section
/-! SUPPORT. Everything an instruction and a step can do, said once: if `exec` or `step` answers a next
state, it is one of the cases below. Invariants follow from these by cases. -/

namespace Sys2Proof.Machine

/-! Each instruction as the execution skeleton with its checks, its effect and its data. -/

section

variable (s : State)

theorem exec_setpoly (v : Word) : exec (.setpoly v) s =
    answer lockedCheck (setPoly v) noData s := rfl
theorem exec_setwidth (v : Word) : exec (.setwidth v) s =
    answer lockedCheck (setWidth v) noData s := rfl
theorem exec_setinit (v : Word) : exec (.setinit v) s =
    answer lockedCheck (setInit v) noData s := rfl
theorem exec_gen : exec .gen s =
    answer generateCheck generate noData s := rfl
theorem exec_preset (n : BitVec 2) : exec (.preset n) s =
    answer lockedCheck (loadPreset n) noData s := rfl
theorem exec_ldinit : exec .ldinit s =
    answer tableCheck (seedCrc s.init) noData s := rfl
theorem exec_seed (v : Word) : exec (.seed v) s =
    answer tableCheck (seedCrc v) noData s := rfl
theorem exec_byte (b : Byte) : exec (.byte b) s =
    answer seededCheck (stepCrc b) noData s := rfl
theorem exec_rdcrc : exec .rdcrc s =
    answer seededCheck noEffect readCrc s := rfl
theorem exec_rdtbl (b : Byte) : exec (.rdtbl b) s =
    answer tableCheck noEffect (fun s => readEntry s.table b) s := rfl
theorem exec_rdpoly : exec .rdpoly s =
    answer noCheck noEffect readPoly s := rfl
theorem exec_rdwidth : exec .rdwidth s =
    answer noCheck noEffect readWidth s := rfl
theorem exec_rdinit : exec .rdinit s =
    answer noCheck noEffect readInit s := rfl
theorem exec_rdstat : exec .rdstat s =
    .next (respond .ok (statusView s) s) := rfl
theorem exec_rst : exec .rst s =
    .next (respond .ok 0 (enterReset s)) := rfl

end

/-- What an instruction can do: echo, raise, answer without an effect, or its own effect. -/
theorem exec_cases {i : Instr} {s t : State} (h : exec i s = .next t) :
    (s.fault ≠ 0#8 ∧ i ≠ .rdstat ∧ i ≠ .rst ∧ t = echoFault s) ∨
    (s.fault = 0#8 ∧ ∃ e, t = raise e s) ∨
    ((s.fault = 0#8 ∨ i = .rdstat) ∧ isRead i = true ∧ ∃ d, t = respond .ok d s) ∨
    (s.fault = 0#8 ∧ s.tv = false ∧ ∃ v, i = .setpoly v ∧ t = respond .ok 0 (setPoly v s)) ∨
    (s.fault = 0#8 ∧ s.tv = false ∧ ∃ v, i = .setwidth v ∧ t = respond .ok 0 (setWidth v s)) ∨
    (s.fault = 0#8 ∧ s.tv = false ∧ ∃ v, i = .setinit v ∧ t = respond .ok 0 (setInit v s)) ∨
    (s.fault = 0#8 ∧ s.tv = false ∧ legalWidth s = true ∧ i = .gen ∧
      t = respond .ok 0 (generate s)) ∨
    (s.fault = 0#8 ∧ s.tv = false ∧ ∃ n, i = .preset n ∧ t = respond .ok 0 (loadPreset n s)) ∨
    (s.fault = 0#8 ∧ s.tv = true ∧ i = .ldinit ∧ t = respond .ok 0 (seedCrc s.init s)) ∨
    (s.fault = 0#8 ∧ s.tv = true ∧ ∃ v, i = .seed v ∧ t = respond .ok 0 (seedCrc v s)) ∨
    (s.fault = 0#8 ∧ s.tv = true ∧ s.rv = true ∧ ∃ b, i = .byte b ∧
      t = respond .ok 0 (stepCrc b s)) ∨
    (i = .rst ∧ t = respond .ok 0 (enterReset s)) := by
  cases i
  case rdstat =>
    exact .inr (.inr (.inl ⟨.inr rfl, rfl, statusView s, by simpa [exec, execRdstat] using h.symm⟩))
  case rst => simp [exec, execRst] at h; simp [h]
  all_goals
    simp only [exec_setpoly, exec_setwidth, exec_setinit, exec_gen, exec_preset, exec_ldinit,
      exec_seed, exec_byte, exec_rdcrc, exec_rdtbl, exec_rdpoly, exec_rdwidth, exec_rdinit] at h
    rcases answer_cases h with ⟨hf, rfl⟩ | ⟨hf, e, -, rfl⟩ | ⟨hf, hc, rfl⟩
    · exact .inl ⟨hf, nofun, nofun, rfl⟩
    · exact .inr (.inl ⟨hf, e, rfl⟩)
    · clear h
      revert hc
      simp [isRead, noEffect, noData, hf]
      tauto

/-- What the word at the port can do: it is a command and is executed, or it is none. -/
theorem runWord_cases {c : CmdWord} {s t : State} (h : runWord c s = .next t) :
    (∃ i, decode c = .ok i ∧ exec i s = .next t) ∨
    (s.fault ≠ 0#8 ∧ (∃ e, decode c = .error e) ∧ t = echoFault s) ∨
    (s.fault = 0#8 ∧ (∃ e, decode c = .error e) ∧ t = raise .illegalCommand s) := by
  simp only [runWord] at h
  split at h
  · exact .inl ⟨_, ‹_›, h⟩
  · rename_i e he
    by_cases hf : s.fault = 0#8
    · rw [illegalCommand_eq, if_pos hf] at h
      exact .inr (.inr ⟨hf, ⟨e, he⟩, by simpa using h.symm⟩)
    · rw [illegalCommand_eq, if_neg hf] at h
      exact .inr (.inl ⟨hf, ⟨e, he⟩, by simpa using h.symm⟩)

/-- A command presented to a block that is not held in reset is executed (R60). -/
theorem portEvent_ready {s : State} (h : s.inReset = false) (c : CmdWord) :
    portEvent (.command c) s = runWord c s := by
  simp [portEvent, cmdReady, h]

/-- A command presented to a block held in reset is not issued (R140). -/
theorem portEvent_held {s : State} (h : s.inReset = true) (c : CmdWord) :
    portEvent (.command c) s = .next s := by
  simp [portEvent, cmdReady, h]

/-- What a step can do. -/
theorem step_cases {s t : State} (h : step s = .next t) :
    (s.inputs = [] ∧ t = s) ∨
    (∃ c rest, s.inputs = .command c :: rest ∧ s.inReset = true ∧ t = setInputs rest s) ∨
    (∃ c rest, s.inputs = .command c :: rest ∧ s.inReset = false ∧
      runWord c (setInputs rest s) = .next t) ∨
    (∃ f rest, s.inputs = .resetLow f :: rest ∧ t = holdReset true (enterReset (setInputs rest s))) ∨
    (∃ rest, s.inputs = .resetHigh :: rest ∧ t = holdReset false (setInputs rest s)) := by
  simp only [step, nextEvent] at h
  split at h
  · simp_all
  · rename_i e rest hin
    cases e with
    | command c =>
      cases hr : s.inReset <;> simp_all [portEvent, cmdReady]
    | resetLow f => simp_all [portEvent, assertReset]
    | resetHigh => simp_all [portEvent, releaseReset]

/-- A run's first step, for any machine of the host's. -/
theorem run_succ_of_step {M : Host.Core} {n : Nat} {s t : M.State} (h : M.step s = .next t) :
    M.run (n + 1) s = M.run n t := by
  simp [Host.Core.run, h]

/-- A run of the engine, one step at a time. -/
theorem run_succ {n : Nat} {s t : State} (h : step s = .next t) :
    core.run (n + 1) s = core.run n t := run_succ_of_step (M := core) h

/-- A sequence of commands, one at a time. -/
theorem execAll_cons {i : Instr} {rest : List Instr} {s t : State} (h : exec i s = .next t) :
    execAll (i :: rest) s = execAll rest t := by
  simp [execAll, h]

end Sys2Proof.Machine
end

