-- ==== Sys2Proof/Tests/Slice0.lean ====
section
/-! SUPPORT. Tests: well-formedness and decoding against the spec's own words, one step of each command
against the spec's vectors, the assembler, and a witness for the hypotheses of every statement that
has any. Every expected value is the spec's (`95_test_vectors.md`, `96_preset_tables.md`). -/

namespace Sys2Proof.Tests

open Sys2Proof Sys2Proof.Machine

/-! ### Well-formedness: an ill-formed raw command for each check, beside its accepted neighbour
(`95_test_vectors.md` section 7) -/

theorem test_wf_z : (RawCommand.mk .gen 1).WellFormed = false ∧
    (RawCommand.mk .gen 0).WellFormed = true := by decide

theorem test_wf_b : (RawCommand.mk .byte 0x100).WellFormed = false ∧
    (RawCommand.mk .byte 0xFF).WellFormed = true ∧
    (RawCommand.mk .rdtbl 256).WellFormed = false ∧
    (RawCommand.mk .rdtbl 255).WellFormed = true := by decide

theorem test_wf_n : (RawCommand.mk .preset 4).WellFormed = false ∧
    (RawCommand.mk .preset 3).WellFormed = true := by decide

theorem test_wf_i : (RawCommand.mk .seed 0xFFFFFFFF).WellFormed = true := by decide

/-- The words of the ill-formed raw commands are refused by name, and those of their neighbours read
(R55). -/
theorem test_reserved_refused :
    decode (encodeRaw ⟨.gen, 1⟩) = .error (.reservedBits .gen) ∧
    decode (encodeRaw ⟨.byte, 0x100⟩) = .error (.reservedBits .byte) ∧
    decode (encodeRaw ⟨.preset, 4⟩) = .error (.reservedBits .preset) ∧
    decode (encodeRaw ⟨.rdtbl, 256⟩) = .error (.reservedBits .rdtbl) ∧
    decode (encodeRaw ⟨.rdtbl, 255⟩) = .ok (.rdtbl 255) := by
  refine ⟨rfl, rfl, rfl, rfl, rfl⟩

/-! ### Decoding: a word for every constructor, written out from the pattern column of R53 -/

theorem test_decode_setpoly :
    decode 0b00000001_00000000000000000001000000100001 = .ok (.setpoly 0x1021) := rfl

theorem test_decode_setwidth :
    decode 0b00000010_00000000000000000000000000010000 = .ok (.setwidth 16) := rfl

theorem test_decode_setinit :
    decode 0b00000011_00000000000000001111111111111111 = .ok (.setinit 0xFFFF) := rfl

theorem test_decode_gen : decode 0b00000100_00000000000000000000000000000000 = .ok .gen := rfl

theorem test_decode_preset :
    decode 0b00000101_00000000000000000000000000000010 = .ok (.preset 2) := rfl

theorem test_decode_ldinit : decode 0b00010000_00000000000000000000000000000000 = .ok .ldinit := rfl

theorem test_decode_seed :
    decode 0b00010001_10101011110011010101001101001001 = .ok (.seed 0xABCD5349) := rfl

theorem test_decode_byte :
    decode 0b00010010_00000000000000000000000000110001 = .ok (.byte 0x31) := rfl

theorem test_decode_rdcrc : decode 0b00010011_00000000000000000000000000000000 = .ok .rdcrc := rfl

theorem test_decode_rdtbl :
    decode 0b00100000_00000000000000000000000011111111 = .ok (.rdtbl 255) := rfl

theorem test_decode_rdpoly : decode 0b00100001_00000000000000000000000000000000 = .ok .rdpoly := rfl

theorem test_decode_rdwidth : decode 0b00100010_00000000000000000000000000000000 = .ok .rdwidth := rfl

theorem test_decode_rdinit : decode 0b00100011_00000000000000000000000000000000 = .ok .rdinit := rfl

theorem test_decode_rdstat : decode 0b00100100_00000000000000000000000000000000 = .ok .rdstat := rfl

theorem test_decode_rst : decode 0b11111111_00000000000000000000000000000000 = .ok .rst := rfl

/-- The edges of the holes of R54, and the all-ones word. -/
theorem test_illegal_opcodes :
    [0x00#8, 0x06#8, 0x0F#8, 0x14#8, 0x1F#8, 0x25#8, 0xFE#8].all
      (fun o => mnemonicOf? o == none) = true ∧
    decode 0xFFFFFFFFFF = .error (.reservedBits .rst) := ⟨by decide, rfl⟩

/-- The match and mask columns of R53 agree with the decoder's opcode and format columns. -/
theorem test_opcode_rows :
    opcodeRows.all (fun r => r.pattern == opcodeOf r.mnemonic ++ 0#32 &&
      r.mask == 0xFF#8 ++ reservedMask r.mnemonic.format) = true ∧
    opcodeRows.map OpcodeRow.mnemonic = Mnemonic.all := by decide

theorem test_decodeTableWord : decodeTableWord 40 0x1200000031 = some (.byte 0x31) ∧
    decodeTableWord 40 0x1200000131 = none := by decide

/-! ### One step of each command -/

/-- The state after reset with its registers as given and the table of R72 for them. -/
def ready (p w v : Word) : State :=
  { State.reset with poly := p, width := w, init := v, table := generatedTable p w, tv := true }

/-- `ready` with the register seeded. -/
def seeded (p w v c : Word) : State := { ready p w v with crc := c, rv := true }

/-- The state after reset with a fault latched. -/
def faulted (code : Byte) : State := { State.reset with fault := code }

/-- The configuration of preset 3. -/
def ready8 : State := ready 0x07 8 0xFF

/-- The configuration of preset 2. -/
def ready16 : State := ready 0x1021 16 0xFFFF

/-- The state after the step that runs the word `c`. -/
def after (s : State) (c : Nat) : State :=
  match step (s.withFetchWord 40 c) with
  | .next t => t
  | .fault _ => s
  | .refused _ => s

/-- The answer to the word `c` and a few registers after it. -/
def answerTo (s : State) (c : Nat) : List RspWord × Byte := ((after s c).responses, (after s c).fault)

theorem test_setpoly : (after .reset 0x0100001021).poly = 0x1021 ∧
    answerTo .reset 0x0100001021 = ([0x0000000000], 0) := by decide

theorem test_setpoly_locked : answerTo ready8 0x0100000007 = ([0x0400000000], 4) := by decide

theorem test_setwidth : (after .reset 0x0200000018).width = 24 ∧
    answerTo .reset 0x0200000018 = ([0x0000000000], 0) := by decide

theorem test_setwidth_faulted : answerTo (faulted 2) 0x0200000008 = ([0x0200000000], 2) := by decide

theorem test_setinit : (after .reset 0x030000FFFF).init = 0xFFFF ∧
    answerTo .reset 0x030000FFFF = ([0x0000000000], 0) := by decide

theorem test_gen_bad_width : answerTo .reset 0x0400000000 = ([0x0100000000], 1) ∧
    answerTo { State.reset with width := 33 } 0x0400000000 = ([0x0100000000], 1) ∧
    answerTo { State.reset with width := 24 } 0x0400000000 = ([0x0100000000], 1) := by decide

theorem test_gen : (after { State.reset with width := 8, poly := 7 } 0x0400000000).tv = true ∧
    readEntry (after { State.reset with width := 8, poly := 7 } 0x0400000000).table 1 = 0x07 := by
  decide

theorem test_preset : (after .reset 0x0500000002).config = ⟨0x1021, 16, 0xFFFF⟩ ∧
    readEntry (after .reset 0x0500000002).table 255 = 0x1EF0 := by decide

theorem test_preset_locked : answerTo ready8 0x0500000003 = ([0x0400000000], 4) := by decide

theorem test_ldinit : (after ready16 0x1000000000).crc = 0xFFFF ∧
    (after ready16 0x1000000000).rv = true := by decide

theorem test_ldinit_no_table : answerTo .reset 0x1000000000 = ([0x0200000000], 2) := by decide

theorem test_seed_masks : (after ready16 0x11ABCD5349).crc = 0x5349 ∧
    (after ready16 0x11ABCD5349).rv = true := by decide

theorem test_byte : (after (seeded 0x1021 16 0xFFFF 0xFFFF) 0x1200000031).crc = 0xC782 ∧
    (after (seeded 0x04C11DB7 32 0xFFFFFFFF 0xFFFFFFFF) 0x1200000000).crc = 0x4E08BFB4 ∧
    (after (seeded 0x07 8 0xFF 0xFF) 0x12000000FF).crc = 0x00 := by decide

theorem test_byte_checks : answerTo ready16 0x1200000031 = ([0x0500000000], 5) ∧
    answerTo .reset 0x1200000100 = ([0x0300000000], 3) := by decide

theorem test_rdcrc :
    answerTo (seeded 0x1021 16 0xFFFF 0xFFFF) 0x1300000000 = ([0x000000FFFF], 0) := by decide

theorem test_rdcrc_not_seeded : answerTo ready16 0x1300000000 = ([0x0500000000], 5) := by decide

theorem test_rdtbl : answerTo ready16 0x20000000FF = ([0x0000001EF0], 0) ∧
    answerTo (ready 0x04C11DB7 32 0xFFFFFFFF) 0x2000000080 = ([0x00690CE0EE], 0) := by decide

theorem test_rdtbl_no_table : answerTo .reset 0x2000000000 = ([0x0200000000], 2) := by decide

theorem test_rdpoly :
    answerTo (ready 0x1EDC6F41 32 0xFFFFFFFF) 0x2100000000 = ([0x001EDC6F41], 0) := by decide

theorem test_rdwidth :
    answerTo { State.reset with width := 24 } 0x2200000000 = ([0x0000000018], 0) := by decide

theorem test_rdinit : answerTo ready8 0x2300000000 = ([0x00000000FF], 0) := by decide

theorem test_rdstat : answerTo (seeded 0x07 8 0xFF 0xFF) 0x2400000000 = ([0x0000000003], 0) ∧
    answerTo { ready8 with fault := 5 } 0x2400000000 = ([0x0000000501], 5) := by decide

theorem test_rdstat_malformed : answerTo (faulted 3) 0x2400000001 = ([0x0300000000], 3) := by decide

theorem test_rst : answerTo (faulted 5) 0xFF00000000 = ([0x0000000000], 0) ∧
    (after ready16 0xFF00000000).width = 0 ∧ (after ready16 0xFF00000000).tv = false := by decide

theorem test_rst_malformed : answerTo .reset 0xFF00000001 = ([0x0300000000], 3) ∧
    answerTo (faulted 2) 0xFF00000001 = ([0x0200000000], 2) := by decide

/-! ### The assembler (R58, R59) -/

theorem test_assemble_byte :
    (assemble "BYTE 0x31 ; the character 1".toList).map tenDigits = some "1200000031".toList := by
  decide

theorem test_assemble_malformed : assemble "PRESET 4".toList = some 0x0500000004 ∧
    assemble "SETWIDTH 16".toList = some 0x0200000010 ∧ assemble "BYTE".toList = none := by decide

theorem test_expected : parseLine "RDCRC -> OK 0x29B1".toList =
    some (⟨.rdcrc, 0⟩, some 0x00000029B1) := by decide

theorem test_numerals : numeral? "0xfF".toList = some 255 ∧ numeral? "16".toList = some 16 ∧
    numeral? "1A".toList = none ∧ numeral? "0xG".toList = none ∧ numeral? "0x".toList = none := by
  decide

theorem test_pseudo_commands :
    configCommands 0x1021 16 0xFFFF = [.setpoly 0x1021, .setwidth 16, .setinit 0xFFFF, .gen] ∧
    updateCommands [0x31, 0x32] = [.ldinit, .byte 0x31, .byte 0x32, .rdcrc] ∧
    textCommands "12".toList = [.byte 0x31, .byte 0x32] ∧
    incUpdateCommands 0x5349 [] = [.seed 0x5349, .rdcrc] := by decide

/-! ### The datapath on the spec's numbers (R70, R71, R75, R76) -/

theorem test_mask : mask 16 0x12345 = 0x2345 := by decide

theorem test_table_entry : tableEntry 0x07 8 0x80 = 0x89 ∧
    tableEntry 0x1021 16 3 = 0x3063 ∧ tableEntry 0x1EDC6F41 32 0x10 = 0xF31A9B51 := by decide

theorem test_update : incUpdate ⟨0x1021, 16, 0xFFFF⟩ [0x35, 0x36, 0x37, 0x38, 0x39] 0x5349 = 0x29B1 ∧
    update ⟨0x1021, 16, 0xFFFF⟩ [0x31, 0x32, 0x33, 0x34] = 0x5349 := by decide

/-! ### Witnesses: states and operands that meet the hypotheses of each statement -/

/-- Ready and seeded, in the configuration of preset 3. -/
def seeded8 : State := seeded 0x07 8 0xFF 0xFF

/-- A block held in reset. -/
def held : State := { State.reset with inReset := true }

/-- The words `cs` are waiting at the port. -/
def waiting (cs : List CmdWord) (s : State) : State := { s with inputs := cs.map .command }

theorem test_seeded8_inv : seeded8.Inv where
  widthLegal := fun _ => .inl rfl
  tableGenerated := fun _ i => generatedTable_entry (p := 0x07) (w := 8) (by decide) i
  registerSeeded := fun _ => ⟨rfl, by decide⟩
  faultInRange := show (0#8).toNat ≤ 5 by decide
  heldAtReset := fun h => by cases h

theorem test_held_inv : { held with inputs := [.resetHigh] }.Inv where
  widthLegal := fun h => by cases h
  tableGenerated := fun h => by cases h
  registerSeeded := fun h => by cases h
  faultInRange := show (0#8).toNat ≤ 5 by decide
  heldAtReset := fun _ => ⟨rfl, rfl, rfl, rfl, rfl, rfl⟩

theorem test_witness_encodeOfDecode : ∃ i, decode 0x11ABCD5349 = .ok i := ⟨_, rfl⟩

/-- A word of the row `PRESET`, at the top of its operand's range, and the next word, of no row. -/
theorem test_witness_decodeSelectsOpcodeRow :
    (0x0500000003 : CmdWord) &&& 0xFFFFFFFFFC = 0x0500000000 ∧
    ⟨.preset, 0x0500000000, 0xFFFFFFFFFC⟩ ∈ opcodeRows ∧
    (0x0500000004 : CmdWord) &&& 0xFFFFFFFFFC ≠ 0x0500000000 := by decide

theorem test_witness_illegalOpcodesFault : ∀ o ∈ [0x00#8, 0x06#8, 0x14#8, 0x25#8, 0xFE#8],
    o ∉ [0x01#8, 0x02#8, 0x03#8, 0x04#8, 0x05#8, 0x10#8, 0x11#8, 0x12#8, 0x13#8, 0x20#8, 0x21#8,
      0x22#8, 0x23#8, 0x24#8, 0xFF#8] ∧ State.reset.fault = 0#8 := by decide

theorem test_witness_reservedBitsFault : State.reset.fault = 0#8 ∧ (1 : Word) ≠ 0#32 ∧
    256 ≤ (0x100 : Word).toNat ∧ ¬ 256 ≤ (0xFF : Word).toNat ∧
    4 ≤ (4 : Word).toNat ∧ ¬ 4 ≤ (3 : Word).toNat := by decide

theorem test_witness_stepRunsDecodedInstruction :
    (waiting [0x0500000003] .reset).inReset = false ∧
    (waiting [0x0500000003] .reset).inputs = .command 0x0500000003 :: [] ∧
    decode 0x0500000003 = .ok (.preset 3) := ⟨rfl, rfl, rfl⟩

/-- The highest word that is a command. -/
theorem test_witness_placedWordRunsNext : 0xFF00000000 < 2 ^ 40 ∧
    decode (BitVec.ofNat 40 0xFF00000000) = .ok .rst := ⟨by decide, rfl⟩

theorem test_witness_commandsAreInputs : (waiting [0x0500000003, 0x1000000000] .reset).inputs =
    .command 0x0500000003 :: [.command 0x1000000000] := rfl

theorem test_witness_runIsFeed : (waiting [0x0500000003, 0x1000000000] .reset).inputs =
    [.command 0x0500000003, .command 0x1000000000] ++ [] := rfl

/-- A stream given as an input, never in the state (`95_test_vectors.md` section 7, `LDINIT` from
Unconfigured). -/
theorem test_feed : ∃ t, feed [.command 0x1000000000] .reset = .next t ∧ t.fault = 2 ∧ t.inputs = [] ∧
    t.responses = [0x0200000000] := ⟨_, rfl, rfl, rfl, rfl⟩

theorem test_witness_idleHoldsState : State.reset.inputs = [] := rfl

/-- `SETPOLY`, `SETWIDTH`, `SETINIT`: Faulted, Ready, Unconfigured. -/
theorem test_witness_setCommands : (faulted 1).fault ≠ 0#8 ∧
    (ready8.fault = 0#8 ∧ ready8.tv = true) ∧
    (State.reset.fault = 0#8 ∧ State.reset.tv = false) := by decide

/-- `GEN`: an operand that is not 0, Faulted, Ready, Unconfigured with an illegal and a legal width. -/
theorem test_witness_genCommand : ((1 : Word) ≠ 0#32 ∧ State.reset.fault = 0#8) ∧
    (faulted 5).fault ≠ 0#8 ∧ (ready8.fault = 0#8 ∧ ready8.tv = true) ∧
    (∀ w : Word, { State.reset with width := w }.fault = 0#8 ∧
      { State.reset with width := w }.tv = false ∧ { State.reset with width := w }.width = w) ∧
    LegalWidth { State.reset with width := 32 }.width.toNat ∧
    ¬ LegalWidth { State.reset with width := 24 }.width.toNat :=
  ⟨by decide, by decide, by decide, fun _ => ⟨rfl, rfl, rfl⟩, .inr (.inr rfl), by simp [LegalWidth]⟩

/-- The legal widths and the illegal values next to them (R91, R121). -/
theorem test_witness_widths :
    (LegalWidth (8#32).toNat ∧ LegalWidth (16#32).toNat ∧ LegalWidth (32#32).toNat) ∧
    ¬ LegalWidth (0#32).toNat ∧ ¬ LegalWidth (7#32).toNat ∧ ¬ LegalWidth (24#32).toNat ∧
    ¬ LegalWidth (33#32).toNat ∧ ¬ LegalWidth (0xFFFFFFFF#32).toNat := by
  simp [LegalWidth]

theorem test_witness_presetCommand : (4 ≤ (4 : Word).toNat ∧ State.reset.fault = 0#8) ∧
    (faulted 5).fault ≠ 0#8 ∧ (ready8.fault = 0#8 ∧ ready8.tv = true) ∧
    (State.reset.fault = 0#8 ∧ State.reset.tv = false) ∧
    ∀ n : BitVec 2, (n, presetRom n) ∈ [(0#2, 0x04C11DB7#32, 32#32, 0xFFFFFFFF#32),
        (1#2, 0x1EDC6F41#32, 32#32, 0xFFFFFFFF#32), (2#2, 0x1021#32, 16#32, 0xFFFF#32),
        (3#2, 0x07#32, 8#32, 0xFF#32)] := by decide

/-- `LDINIT`, `SEED`, `RDTBL`: a malformed word, Faulted, Unconfigured, Ready. -/
theorem test_witness_tableCommands : ((1 : Word) ≠ 0#32 ∧ State.reset.fault = 0#8) ∧
    256 ≤ (0x100 : Word).toNat ∧ (faulted 5).fault ≠ 0#8 ∧
    (State.reset.fault = 0#8 ∧ State.reset.tv = false) ∧
    (ready8.fault = 0#8 ∧ ready8.tv = true) := by decide

/-- `SEED` of the value read, and `RDTBL`, `RDWIDTH` under the invariant. -/
theorem test_witness_underInvariant : seeded8.Inv ∧ seeded8.fault = 0#8 ∧ seeded8.rv = true ∧
    seeded8.tv = true := ⟨test_seeded8_inv, by decide⟩

/-- `BYTE`, `RDCRC`: a malformed word, Faulted, Unconfigured, Ready unseeded, Ready seeded. -/
theorem test_witness_seedCommands : ((1 : Word) ≠ 0#32 ∧ State.reset.fault = 0#8) ∧
    (256 ≤ (0x100 : Word).toNat ∧ State.reset.fault = 0#8) ∧ (faulted 2).fault ≠ 0#8 ∧
    (State.reset.fault = 0#8 ∧ State.reset.tv = false) ∧
    (ready8.fault = 0#8 ∧ ready8.tv = true ∧ ready8.rv = false) ∧
    (seeded8.fault = 0#8 ∧ seeded8.tv = true ∧ seeded8.rv = true ∧ seeded8.width.toNat = 8) := by
  decide

/-- `RDPOLY`, `RDWIDTH`, `RDINIT`, `RDSTAT`, `RST`: a malformed word, Faulted, not Faulted. -/
theorem test_witness_readCommands : (1 : Word) ≠ 0#32 ∧ (faulted 2).fault ≠ 0#8 ∧
    State.reset.fault = 0#8 ∧ ready8.fault = 0#8 := by decide

/-- `CheckOrder`, clause by clause: locked, no table, not seeded, bad width, and no check failing in
Unconfigured and in Ready. -/
theorem test_witness_checkOrder :
    (isConfig (.setpoly 0) = true ∧ ready8.fault = 0#8 ∧ ready8.tv = true) ∧
    (needsTable .rdcrc = true ∧ State.reset.fault = 0#8 ∧ State.reset.tv = false) ∧
    (needsSeed .rdcrc = true ∧ ready8.tv = true ∧ ready8.rv = false) ∧
    (State.reset.tv = false ∧ ¬ (State.reset.width.toNat = 8 ∨ State.reset.width.toNat = 16 ∨
      State.reset.width.toNat = 32)) ∧
    (¬ (isConfig .rdpoly = true ∧ State.reset.tv = true) ∧
      ¬ (needsTable .rdpoly = true ∧ State.reset.tv = false) ∧
      ¬ (needsSeed .rdpoly = true ∧ State.reset.rv = false) ∧ Instr.rdpoly ≠ .gen) ∧
    (¬ (isConfig .rdcrc = true ∧ seeded8.tv = true) ∧
      ¬ (needsTable .rdcrc = true ∧ seeded8.tv = false) ∧
      ¬ (needsSeed .rdcrc = true ∧ seeded8.rv = false) ∧ Instr.rdcrc ≠ .gen) := by decide

/-- A Faulted block with a command at the port, a word of no row, and a malformed `RDSTAT`. -/
theorem test_witness_faultedEchoes :
    (∀ c ∈ [0x0500000003#40, 0x0000000000#40, 0x2400000001#40],
      (waiting [c] (faulted 3)).inReset = false ∧
      (waiting [c] (faulted 3)).inputs = .command c :: [] ∧ (waiting [c] (faulted 3)).fault ≠ 0#8) ∧
    decode 0x0500000003 = .ok (.preset 3) ∧ decode 0x0000000000 = .error (.illegalOpcode 0) ∧
    decode 0x2400000001 = .error (.reservedBits .rdstat) ∧
    decode 0x0500000003 ≠ .ok .rdstat ∧ decode 0x0500000003 ≠ .ok .rst :=
  ⟨fun _ _ => ⟨rfl, rfl, show (3#8) ≠ 0#8 by decide⟩, rfl, rfl, rfl,
    (fun h => nomatch (show Except.ok (ε := DecodeError) (Instr.preset 3) = .ok .rdstat from h)),
    (fun h => nomatch (show Except.ok (ε := DecodeError) (Instr.preset 3) = .ok .rst from h))⟩

/-- A step that enters the Faulted state: the premises of `FaultIsPrecise` and of the rise in
`FaultPinLevel`. -/
theorem test_witness_faultIsPrecise : ∃ t, (waiting [0x0400000000] .reset).fault = 0#8 ∧
    step (waiting [0x0400000000] .reset) = .next t ∧ t.fault ≠ 0#8 ∧
    faultPin (waiting [0x0400000000] .reset) = false ∧ faultPin t = true :=
  ⟨_, rfl, rfl, by decide, by decide, by decide⟩

/-- The waiting word `RST`, and the falling reset pin, reset; a waiting `SETPOLY` does not. -/
theorem test_witness_nextResets : nextResets (waiting [0xFF00000000] .reset) ∧
    nextResets { State.reset with inputs := [.resetLow none] } ∧
    ¬ nextResets (waiting [0x0100001021] (faulted 3)) := by
  refine ⟨.inl ⟨rfl, _, [], rfl, rfl⟩, .inr ⟨none, [], rfl⟩, ?_⟩
  rintro (⟨-, c, rest, h, hd⟩ | ⟨f, rest, h⟩)
  · cases h
    exact nomatch (show Except.ok (ε := DecodeError) (Instr.setpoly 0x1021) = .ok .rst from hd)
  · cases h

/-- A Faulted step without a reset (`FirstFaultKept`), with one (the fall in `FaultPinLevel`). -/
theorem test_witness_firstFaultKept : (waiting [0x0100001021] (faulted 3)).fault ≠ 0#8 ∧
    (∃ t, step (waiting [0x0100001021] (faulted 3)) = .next t) ∧
    ¬ nextResets (waiting [0x0100001021] (faulted 3)) ∧
    (∃ t, step (waiting [0xFF00000000] (faulted 3)) = .next t ∧
      faultPin (waiting [0xFF00000000] (faulted 3)) = true ∧ faultPin t = false) :=
  ⟨by decide, ⟨_, rfl⟩, test_witness_nextResets.2.2, _, rfl, by decide, by decide⟩

theorem test_witness_everyCommandAnswered : (waiting [0xFFFFFFFFFF] (faulted 5)).inReset = false ∧
    (waiting [0xFFFFFFFFFF] (faulted 5)).inputs = .command 0xFFFFFFFFFF :: [] ∧
    (waiting [0xFFFFFFFFFF] (faulted 5)).FaultInRange :=
  ⟨rfl, rfl, show (5#8).toNat ≤ 5 by decide⟩

/-- A read that succeeds, and one that does not. -/
theorem test_witness_reads : isRead .rdcrc = true ∧
    (∃ t, exec .rdcrc seeded8 = .next t ∧ t.fault = seeded8.fault) ∧
    (∃ t, exec .rdcrc ready8 = .next t ∧ t.fault ≠ 0#8) :=
  ⟨rfl, ⟨_, rfl, rfl⟩, _, rfl, by decide⟩

/-- `TV` rises, `RV` rises, `CRC` changes: the steps the writers' statements are about. -/
theorem test_witness_writers :
    (∃ t, step (waiting [0x0500000003] .reset) = .next t ∧ State.reset.tv = false ∧ t.tv = true) ∧
    (∃ t, step (waiting [0x1000000000] ready8) = .next t ∧ ready8.rv = false ∧ t.rv = true) ∧
    (∃ t, step (waiting [0x1200000031] seeded8) = .next t ∧ t.crc = 0x64) :=
  ⟨⟨_, rfl, rfl, rfl⟩, ⟨_, rfl, rfl, rfl⟩, _, rfl, by decide⟩

/-- A Ready block that takes a step which is no reset. -/
theorem test_witness_configurationLocked :
    ∃ t, step (waiting [0x1200000031] seeded8) = .next t ∧
      (waiting [0x1200000031] seeded8).tv = true ∧
      ¬ nextResets (waiting [0x1200000031] seeded8) := by
  refine ⟨_, rfl, rfl, ?_⟩
  rintro (⟨-, c, rest, h, hd⟩ | ⟨f, rest, h⟩)
  · cases h
    exact nomatch (show Except.ok (ε := DecodeError) (Instr.byte 0x31) = .ok .rst from hd)
  · cases h

/-- A step that advances the register, and one of a block held in reset, from invariant states. -/
theorem test_witness_invariantKept :
    ((waiting [0x1200000031] seeded8).Inv ∧
      ∃ t, step (waiting [0x1200000031] seeded8) = .next t ∧ t.crc = 0x64) ∧
    ({ held with inputs := [.resetHigh] }.Inv ∧
      ∃ t, step { held with inputs := [.resetHigh] } = .next t ∧ t.inReset = false) :=
  ⟨⟨{ test_seeded8_inv with }, _, rfl, by decide⟩, test_held_inv, _, rfl, rfl⟩

/-- Two blocks that differ in `CRC` and `TABLE` and agree in what R24 gives. -/
theorem test_witness_unspecifiedNeverLeaks :
    State.reset.Agree { State.reset with crc := 5, table := generatedTable 7 8 } := by
  constructor <;> first | rfl | (intro h; cases h)

theorem test_witness_hardReset : { State.reset with inputs := [.resetLow (some 0x0400000000)] }.inputs =
    .resetLow (some 0x0400000000) :: [] := rfl

theorem test_witness_nothingIssuedInReset : (waiting [0x0500000003] held).inReset = true ∧
    (waiting [0x0500000003] held).inputs = .command 0x0500000003 :: [] ∧
    { held with inputs := [.resetHigh] }.inputs = .resetHigh :: [] := ⟨rfl, rfl, rfl⟩

/-- The datapath statements: each legal width, a table and a register within it, at their tops. -/
theorem test_witness_datapath : (∀ w ∈ [8, 16, 32], LegalWidth w) ∧
    (∀ i : Byte, (fun _ => 0xFF : Byte → Nat) i < 2 ^ 8) ∧ 0xFFFFFFFF < 2 ^ 32 := by
  refine ⟨?_, fun _ => show 0xFF < 2 ^ 8 by decide, by decide⟩
  simp [LegalWidth]

/-- The machine's part of `HighBitsIgnored`: an operand, `INIT` and `POLY` with bits above the width. -/
theorem test_witness_highBitsIgnored : ∃ s : State, LegalWidth s.width.toNat ∧
    (0x5349 : Word).toNat = mask s.width.toNat (0xABCD5349 : Word).toNat ∧
    (0x5349 : Word).toNat = mask s.width.toNat s.init.toNat ∧
    (0x5349 : Word).toNat = mask s.width.toNat s.poly.toNat :=
  ⟨ready 0xABCD5349 16 0xABCD5349, .inr (.inl rfl), by decide, by decide, by decide⟩

theorem test_witness_tablesDistinguishPolynomials : LegalWidth 32 ∧ (0 : BitVec 2) ≠ 1 :=
  ⟨.inr (.inr rfl), by decide⟩

theorem test_witness_presetIsConfig : State.reset.fault = 0#8 ∧ State.reset.tv = false := by decide

theorem test_witness_runs :
    ∃ s : State, s.Inv ∧ s.inReset = false ∧ s.fault = 0#8 ∧ s.tv = true ∧
      s.inputs = commandEvents (updateCommands [0x31]) ++ [] :=
  ⟨{ seeded8 with inputs := commandEvents (updateCommands [0x31]) },
    { test_seeded8_inv with }, rfl, rfl, rfl, by simp⟩

theorem test_witness_incrementalRun :
    ∃ s : State, s.Inv ∧ s.inReset = false ∧ s.fault = 0#8 ∧ s.tv = true ∧
      s.inputs = commandEvents (incUpdateCommands 0x64 []) ++ [] :=
  ⟨{ seeded8 with inputs := commandEvents (incUpdateCommands 0x64 []) },
    { test_seeded8_inv with }, rfl, rfl, rfl, by simp⟩

/-- After `PRESET 3`; `LDINIT` a read may be inserted. -/
theorem test_witness_readsInsertedAnywhere : isRead (.rdtbl 255) = true ∧
    ∃ u, execAll [.preset 3, .ldinit] .reset = .next u ∧ u.fault = 0#8 ∧ u.tv = true ∧ u.rv = true :=
  ⟨rfl, _, rfl, rfl, rfl, rfl⟩

/-- The other stream re-seeds and sends a byte, and nothing faults. -/
theorem test_witness_interleavedStreams : seeded8.Inv ∧ seeded8.fault = 0#8 ∧ seeded8.rv = true ∧
    Instr.rst ∉ [Instr.ldinit, .byte 0x31] ∧
    ∃ t, execAll (.rdcrc :: [.ldinit, .byte 0x31] ++ [.seed seeded8.crc]) seeded8 = .next t ∧
      t.fault = 0#8 := ⟨test_seeded8_inv, rfl, rfl, by decide, _, rfl, rfl⟩

end Sys2Proof.Tests
end

/-! ## Reasoning rules for the step, the word at the port and the lifecycle -/

namespace Sys2Proof.Machine

/-- With no event waiting the block is idle (R135). -/
theorem step_idle {s : State} (h : s.inputs = []) : step s = .next s := by
  simp only [step, nextEvent, h]

/-- A step takes the next event off the stream and lets it act. -/
theorem step_of_inputs {s : State} {e : PortEvent} {rest : List PortEvent}
    (h : s.inputs = e :: rest) : step s = portEvent e (setInputs rest s) := by
  simp only [step, nextEvent, h]

/-- The pin's fall (R140). -/
theorem portEvent_resetLow (f : Option CmdWord) (s : State) :
    portEvent (.resetLow f) s = .next (holdReset true (enterReset s)) := rfl

/-- The pin's rise (R140). -/
theorem portEvent_resetHigh (s : State) : portEvent .resetHigh s = .next (holdReset false s) := rfl

/-- A word that decodes executes its instruction (R127). -/
theorem runWord_ok {c : CmdWord} {i : Instr} (hd : decode c = .ok i) (s : State) :
    runWord c s = exec i s := by
  simp only [runWord, hd]

/-- A word that does not decode is no command (R124). -/
theorem runWord_error {c : CmdWord} {e : DecodeError} (hd : decode c = .error e) (s : State) :
    runWord c s = .next (illegalCommand s) := by
  simp only [runWord, hd]

/-- A word whose operand its row's format admits executes its instruction (R55, R127). -/
theorem runWord_admitted {m : Mnemonic} {op : Word} (h : m.format.admits op = true) (s : State) :
    runWord (opcodeOf m ++ op) s = exec (buildInstr m op) s :=
  runWord_ok (by rw [decode_append, if_pos h]) s

/-- A word whose operand is outside its row's format is no command (R55, R127). -/
theorem runWord_malformed {m : Mnemonic} {op : Word} (h : m.format.admits op = false) (s : State) :
    runWord (opcodeOf m ++ op) s = .next (illegalCommand s) :=
  runWord_error (e := .reservedBits m) (by rw [decode_append, h]; rfl) s

/-- A word with reserved bits set, in a healthy block: `E_ILLEGAL_COMMAND` (R55, R124). -/
theorem runWord_malformed_raises {m : Mnemonic} {op : Word} (h : m.format.admits op = false)
    {s : State} (hf : s.fault = 0#8) : runWord (opcodeOf m ++ op) s =
      .next { s with fault := 3#8, responses := s.responses ++ [3#8 ++ 0#32] } := by
  rw [runWord_malformed h, illegalCommand_eq, if_pos hf]
  rfl

/-- A word with reserved bits set, in a Faulted block: the echo (R128). -/
theorem runWord_malformed_echoes {m : Mnemonic} {op : Word} (h : m.format.admits op = false)
    {s : State} (hf : s.fault ≠ 0#8) : runWord (opcodeOf m ++ op) s =
      .next { s with responses := s.responses ++ [s.fault ++ 0#32] } := by
  rw [runWord_malformed h, illegalCommand_eq, if_neg hf]
  rfl

/-- Format Z admits the operand 0 only (R51). -/
theorem admits_z_eq_false {op : Word} (h : op ≠ 0#32) : Format.z.admits op = false := by
  have : op.toNat ≠ 0 := fun h0 => h (BitVec.eq_of_toNat_eq h0)
  simpa [Format.admits] using this

/-- A word that is no command leaves the stream behind it. -/
theorem illegalCommand_inputs (s : State) : (illegalCommand s).inputs = s.inputs := by
  rw [illegalCommand_eq]
  split <;> rfl

/-- No fault has the code 0 (R56). -/
theorem faultCode_ne_zero (e : FaultKind) : faultCode e ≠ 0#8 := by
  cases e <;> decide

/-- The fault codes are 1 to 5 (R56). -/
theorem faultCode_le (e : FaultKind) : (faultCode e).toNat ≤ 5 := by
  cases e <;> decide

/-- The lifecycle state is a function of `FAULT` and `TV` (R20). -/
theorem lifecycle_congr {s t : State} (hf : t.fault = s.fault) (htv : t.tv = s.tv) :
    lifecycle t = lifecycle s := by
  simp [lifecycle, hf, htv]

/-- Faulted is `FAULT` not 0 (R20). -/
theorem lifecycle_of_fault_ne_zero {s : State} (hf : s.fault ≠ 0#8) : lifecycle s = .faulted :=
  if_pos hf

/-- Ready is `TV = 1` without a fault (R20). -/
theorem lifecycle_ready {s : State} (hf : s.fault = 0#8) (htv : s.tv = true) :
    lifecycle s = .ready := by
  simp [lifecycle, hf, htv]

/-- Unconfigured is `TV = 0` without a fault (R20). -/
theorem lifecycle_unconfigured {s : State} (hf : s.fault = 0#8) (htv : s.tv = false) :
    lifecycle s = .unconfigured := by
  simp [lifecycle, hf, htv]

/-- Without a fault the block is not Faulted (R20). -/
theorem lifecycle_ne_faulted {s : State} (hf : s.fault = 0#8) : lifecycle s ≠ .faulted := by
  cases htv : s.tv
  · simp [lifecycle_unconfigured hf htv]
  · simp [lifecycle_ready hf htv]

end Sys2Proof.Machine

/-! ## What one step does to the engine

`Change s t` collects the twelve cases of `exec_cases` and the events at the ports into the seven
things that can happen to the registers; the statements about who writes what are cases on it. -/

namespace Sys2Proof.Machine

/-- What a step from `s` to `t` can do to the architectural state. -/
inductive Change (s t : State) : Prop
  /-- nothing: idle, the pin's rise, a command not issued, an echo, a read -/
  | keeps (engine : t.toEngine = s.toEngine) (free : t.freeCount = s.freeCount)
  /-- `RST` or the reset pin (R115, R140) -/
  | resets (next : nextResets s) (engine : t.toEngine = (enterReset s).toEngine)
  /-- fault entry (R123) -/
  | faults (c : CmdWord) (rest : List PortEvent) (e : FaultKind) (healthy : s.fault = 0#8)
      (waiting : s.inputs = .command c :: rest) (state : t = raise e (setInputs rest s))
  /-- `SETPOLY`, `SETWIDTH`, `SETINIT` (R90 to R92) -/
  | configures (p w v : Word) (healthy : s.fault = 0#8) (unlocked : s.tv = false)
      (engine : t.toEngine = { s.toEngine with poly := p, width := w, init := v })
  /-- `GEN`, `PRESET` (R93, R94) -/
  | generates (p w v : Word) (healthy : s.fault = 0#8) (unlocked : s.tv = false)
      (next : nextIs s .gen ∨ ∃ n, nextIs s (.preset n)) (legal : LegalWidth w.toNat)
      (engine : t.toEngine = { s.toEngine with
        poly := p, width := w, init := v, table := generatedTable p w, tv := true })
  /-- `LDINIT`, `SEED` (R100, R101) -/
  | seeds (v : Word) (healthy : s.fault = 0#8) (valid : s.tv = true)
      (next : nextIs s .ldinit ∨ ∃ u, nextIs s (.seed u))
      (engine : t.toEngine = { s.toEngine with
        crc := BitVec.ofNat 32 (mask s.w v.toNat), rv := true })
  /-- `BYTE` (R102) -/
  | advances (b : Byte) (healthy : s.fault = 0#8) (valid : s.tv = true) (seeded : s.rv = true)
      (next : nextIs s (.byte b))
      (engine : t.toEngine = { s.toEngine with
        crc := BitVec.ofNat 32 (crcStep (tableNat s.table) s.w s.crc.toNat b) })

/-- A waiting command that is issued changes the engine in one of the seven ways. -/
theorem runWord_change {s t : State} {c : CmdWord} {rest : List PortEvent}
    (hin : s.inputs = .command c :: rest) (hready : s.inReset = false)
    (h : runWord c (setInputs rest s) = .next t) : Change s t := by
  rcases runWord_cases h with ⟨i, hd, he⟩ | ⟨-, -, rfl⟩ | ⟨hf, -, rfl⟩
  · have hi : nextIs s i := ⟨hready, c, rest, hin, hd⟩
    rcases exec_cases he with ⟨-, -, -, rfl⟩ | ⟨hf, e, rfl⟩ | ⟨-, -, d, rfl⟩ |
      ⟨hf, htv, v, -, rfl⟩ | ⟨hf, htv, v, -, rfl⟩ | ⟨hf, htv, v, -, rfl⟩ |
      ⟨hf, htv, hw, rfl, rfl⟩ | ⟨hf, htv, n, rfl, rfl⟩ |
      ⟨hf, htv, rfl, rfl⟩ | ⟨hf, htv, v, rfl, rfl⟩ | ⟨hf, htv, hrv, b, rfl, rfl⟩ | ⟨rfl, rfl⟩
    · exact .keeps rfl rfl
    · exact .faults c rest e hf hin rfl
    · exact .keeps rfl rfl
    · exact .configures v s.width s.init hf htv rfl
    · exact .configures s.poly v s.init hf htv rfl
    · exact .configures s.poly s.width v hf htv rfl
    · exact .generates s.poly s.width s.init hf htv (.inl hi) (legalWidth_iff.mp hw) rfl
    · exact .generates _ _ _ hf htv (.inr ⟨n, hi⟩) (presetRom_width n) rfl
    · exact .seeds s.init hf htv (.inl hi) rfl
    · exact .seeds v hf htv (.inr ⟨v, hi⟩) rfl
    · exact .advances b hf htv hrv hi rfl
    · exact .resets (.inl hi) rfl
  · exact .keeps rfl rfl
  · exact .faults c rest _ hf hin rfl

/-- Every step changes the engine in one of the seven ways. -/
theorem step_change {s t : State} (h : step s = .next t) : Change s t := by
  rcases step_cases h with ⟨-, rfl⟩ | ⟨c, rest, -, -, rfl⟩ | ⟨c, rest, hin, hready, hrun⟩ |
    ⟨f, rest, hin, rfl⟩ | ⟨rest, -, rfl⟩
  · exact .keeps rfl rfl
  · exact .keeps rfl rfl
  · exact runWord_change hin hready hrun
  · exact .resets (.inr ⟨f, rest, hin⟩) rfl
  · exact .keeps rfl rfl

/-- The step that takes a command which decodes is that command's execution. -/
theorem step_of_nextIs {s : State} {i : Instr} (h : nextIs s i) :
    step s = exec i (setInputs s.inputs.tail s) := by
  obtain ⟨hready, c, rest, hin, hd⟩ := h
  have hready' : (setInputs rest s).inReset = false := hready
  rw [step_of_inputs hin, portEvent_ready hready', runWord_ok hd, hin, List.tail_cons]

/-- A step that resets gives the reset values (R24, R115, R141). -/
theorem step_of_nextResets {s t : State} (h : step s = .next t) (hr : nextResets s) :
    t.toEngine = (enterReset s).toEngine := by
  rcases hr with hi | ⟨f, rest, hin⟩
  · rw [step_of_nextIs hi, exec_rst] at h
    cases h
    rfl
  · rw [step_of_inputs hin, portEvent_resetLow] at h
    cases h
    rfl

end Sys2Proof.Machine

/-! ## The invariant -/

namespace Sys2Proof.Machine

/-- A command that is issued leaves the pin's level as it is. -/
theorem runWord_inReset {c : CmdWord} {s t : State} (h : runWord c s = .next t) :
    t.inReset = s.inReset := by
  rcases runWord_cases h with ⟨i, -, he⟩ | ⟨-, -, rfl⟩ | ⟨-, -, rfl⟩
  · rcases exec_cases he with ⟨-, -, -, rfl⟩ | ⟨-, e, rfl⟩ | ⟨-, -, d, rfl⟩ |
      ⟨-, -, v, -, rfl⟩ | ⟨-, -, v, -, rfl⟩ | ⟨-, -, v, -, rfl⟩ | ⟨-, -, -, -, rfl⟩ |
      ⟨-, -, n, -, rfl⟩ | ⟨-, -, -, rfl⟩ | ⟨-, -, v, -, rfl⟩ | ⟨-, -, -, b, -, rfl⟩ | ⟨-, rfl⟩ <;>
      rfl
  · rfl
  · rfl

/-- A block held in reset keeps the reset values: nothing is issued to it, and the pin's fall sets
them (assumption 6). -/
theorem step_heldAtReset {s t : State} (hs : s.HeldAtReset) (h : step s = .next t) :
    t.HeldAtReset := by
  rcases step_cases h with ⟨-, rfl⟩ | ⟨c, rest, -, -, rfl⟩ | ⟨c, rest, -, hready, hrun⟩ |
    ⟨f, rest, -, rfl⟩ | ⟨rest, -, rfl⟩
  · exact hs
  · exact hs
  · intro ht
    have hkept : t.inReset = (setInputs rest s).inReset := runWord_inReset hrun
    simp_all
  · exact fun _ => ⟨rfl, rfl, rfl, rfl, rfl, rfl⟩
  · exact fun ht => nomatch ht

/-- A masked value stored in a 32-bit register is below `2^w`. -/
theorem toNat_ofNat_lt {w v : Nat} (h : v < 2 ^ w) : (BitVec.ofNat 32 v).toNat < 2 ^ w := by
  rw [BitVec.toNat_ofNat]
  exact lt_of_le_of_lt (Nat.mod_le _ _) h

/-- R21 (a) and (b) speak of `POLY`, `WIDTH`, `TABLE` and `TV` only. -/
theorem widthLegal_tableGenerated_congr {s t : State} (hs : s.WidthLegal ∧ s.TableGenerated)
    (hpoly : t.poly = s.poly) (hwidth : t.width = s.width) (htable : t.table = s.table)
    (htv : t.tv = s.tv) : t.WidthLegal ∧ t.TableGenerated := by
  simpa only [State.WidthLegal, State.TableGenerated, State.w, hpoly, hwidth, htable, htv] using hs

/-- Each of the seven changes keeps R21 (a) and (b). -/
theorem Change.widthLegal_tableGenerated {s t : State} (c : Change s t)
    (hs : s.WidthLegal ∧ s.TableGenerated) : t.WidthLegal ∧ t.TableGenerated := by
  cases c with
  | keeps engine | seeds _ _ _ _ engine | advances _ _ _ _ _ engine =>
    exact widthLegal_tableGenerated_congr hs (by simp [engine]) (by simp [engine])
      (by simp [engine]) (by simp [engine])
  | faults _ _ _ _ _ state => exact state ▸ hs
  | resets _ engine | configures _ _ _ _ _ engine =>
    simp_all [State.WidthLegal, State.TableGenerated]
  | generates p w v _ _ _ legal engine =>
    have hle : w.toNat ≤ 32 := by
      rcases legal with h | h | h <;> omega
    constructor
    · intro _
      simpa [engine, State.w, LegalWidth] using legal
    · intro _ i
      simpa [engine, State.w, tableNat] using generatedTable_entry hle i

/-- Each of the seven changes keeps R21 (c). -/
theorem Change.registerSeeded {s t : State} (c : Change s t) (hs : s.RegisterSeeded) :
    t.RegisterSeeded := by
  cases c with
  | keeps engine => simpa only [State.RegisterSeeded, State.w, engine] using hs
  | faults _ _ _ _ _ state => exact state ▸ hs
  | resets _ engine => simp [State.RegisterSeeded, engine]
  | configures _ _ _ _ unlocked engine | generates _ _ _ _ unlocked _ _ engine =>
    intro hrv
    obtain ⟨locked, -⟩ := hs (by simpa [engine] using hrv)
    simp [locked] at unlocked
  | seeds v _ valid _ engine =>
    intro _
    simpa [engine, State.w, valid] using toNat_ofNat_lt (mask_lt s.width.toNat v.toNat)
  | advances b _ valid _ _ engine =>
    intro _
    simpa [engine, State.w, valid] using
      toNat_ofNat_lt (crcStep_lt (tableNat s.table) s.width.toNat s.crc.toNat b)

/-- Each of the seven changes keeps R21 (d). -/
theorem Change.faultInRange {s t : State} (c : Change s t) (hs : s.FaultInRange) :
    t.FaultInRange := by
  cases c with
  | faults _ _ e _ _ state => exact state ▸ faultCode_le e
  | keeps engine | resets _ engine | configures _ _ _ _ _ engine | generates _ _ _ _ _ _ _ engine
  | seeds _ _ _ _ engine | advances _ _ _ _ _ engine =>
    simp_all [State.FaultInRange]

/-- Settles O41: of the seven changes of a step only `GEN` and `PRESET` touch the table and the
width while `TV` is or becomes 1, and only `LDINIT`, `SEED` and `BYTE`, which mask, touch a seeded
`CRC`. -/
theorem invariantKept : Obligations.InvariantKept := by
  intro s t hs h
  have c := step_change h
  have ⟨hwidth, htable⟩ := c.widthLegal_tableGenerated ⟨hs.widthLegal, hs.tableGenerated⟩
  exact ⟨hwidth, htable, c.registerSeeded hs.registerSeeded, c.faultInRange hs.faultInRange,
    step_heldAtReset hs.heldAtReset h⟩

end Sys2Proof.Machine

/-! ## Who writes what, and the lifecycle

Each statement is a case analysis on the seven changes. -/

namespace Sys2Proof.Machine

/-- Settles O28: the one change that raises `FAULT` is fault entry. -/
theorem faultIsPrecise : Obligations.FaultIsPrecise := by
  intro s t hf h ht
  cases step_change h with
  | faults c rest e _ waiting state =>
    subst state
    exact ⟨faultCode_le e, c, rest, waiting, rfl⟩
  | keeps engine | resets _ engine | configures _ _ _ _ _ engine | generates _ _ _ _ _ _ _ engine
  | seeds _ _ _ _ engine | advances _ _ _ _ _ engine =>
    exact absurd (by simp [engine, hf]) ht

/-- Settles O29: a Faulted block echoes, unless it resets; every other change starts from
`FAULT = 0`. -/
theorem firstFaultKept : Obligations.FirstFaultKept := by
  intro s t hf h hr
  cases step_change h with
  | keeps engine free =>
    obtain ⟨_, _, _, _, _⟩ := t
    simp only at engine free
    rw [engine, free]
  | resets next => exact absurd next hr
  | faults _ _ _ healthy | configures _ _ _ healthy | generates _ _ _ healthy
  | seeds _ healthy | advances _ healthy =>
    exact absurd healthy hf

/-- Settles O33: `FAULT` and `TV` change by a reset, by fault entry and by `GEN` and `PRESET`
only. -/
theorem lifecycleTransitions : Obligations.LifecycleTransitions := by
  intro s t h
  constructor
  · intro hr
    have engine := step_of_nextResets h hr
    exact lifecycle_unconfigured (by simp [engine]) (by simp [engine])
  · intro hr
    cases step_change h with
    | keeps engine | configures _ _ _ _ _ engine | seeds _ _ _ _ engine
    | advances _ _ _ _ _ engine =>
      exact .inl (lifecycle_congr (by simp [engine]) (by simp [engine]))
    | resets next => exact absurd next hr
    | faults _ _ e healthy _ state =>
      subst state
      exact .inr (.inr ⟨lifecycle_ne_faulted healthy,
        lifecycle_of_fault_ne_zero (faultCode_ne_zero e)⟩)
    | generates _ _ _ healthy unlocked next _ engine =>
      exact .inr (.inl ⟨lifecycle_unconfigured healthy unlocked,
        lifecycle_ready (by simp [engine, healthy]) (by simp [engine]), next⟩)

/-- Settles O34: of the changes that are no reset only `GEN` and `PRESET` write `TV`, and they set
it. -/
theorem tableValidWriters : Obligations.TableValidWriters := by
  intro s t h
  refine ⟨fun hr => by simp [step_of_nextResets h hr], ?_⟩
  cases step_change h with
  | keeps engine | configures _ _ _ _ _ engine | seeds _ _ _ _ engine
  | advances _ _ _ _ _ engine =>
    have htv : t.tv = s.tv := by simp [engine]
    simp_all
  | resets next engine => simp [next, engine]
  | faults _ _ _ _ _ state => simp_all
  | generates _ _ _ healthy _ next _ engine => simp [engine, healthy, next]

/-- Settles O35: of the changes that are no reset only `LDINIT` and `SEED` write `RV`, and they set
it. -/
theorem registerValidWriters : Obligations.RegisterValidWriters := by
  intro s t h
  refine ⟨fun hr => by simp [step_of_nextResets h hr], ?_⟩
  cases step_change h with
  | keeps engine | configures _ _ _ _ _ engine | generates _ _ _ _ _ _ _ engine
  | advances _ _ _ _ _ engine =>
    have hrv : t.rv = s.rv := by simp [engine]
    simp_all
  | resets next engine => simp [next, engine]
  | faults _ _ _ _ _ state => simp_all
  | seeds _ healthy valid next engine => simp [engine, healthy, valid, next]

/-- Settles O36: of the changes that are no reset only `LDINIT`, `SEED` and `BYTE` write `CRC`. -/
theorem crcWriters : Obligations.CrcWriters := by
  intro s t h
  cases step_change h with
  | keeps engine | configures _ _ _ _ _ engine | generates _ _ _ _ _ _ _ engine =>
    exact .inl (by simp [engine])
  | faults _ _ _ _ _ state => exact .inl (by simp [state])
  | resets next => exact .inr (.inl next)
  | seeds _ healthy valid next => exact .inr (.inr ⟨healthy, valid, next.imp_right .inl⟩)
  | advances b healthy valid seeded next =>
    exact .inr (.inr ⟨healthy, valid, .inr (.inr ⟨seeded, b, next⟩)⟩)

/-- Settles O38: the changes that write the configuration or the table start from `TV = 0`, or are a
reset. -/
theorem configurationLocked : Obligations.ConfigurationLocked := by
  intro s t h htv hr
  cases step_change h with
  | keeps engine | seeds _ _ _ _ engine | advances _ _ _ _ _ engine => simp [engine, htv]
  | faults _ _ _ _ _ state => simp [state, htv]
  | resets next => exact absurd next hr
  | configures _ _ _ _ unlocked | generates _ _ _ _ unlocked => simp_all

end Sys2Proof.Machine

/-! ## Unspecified values -/

namespace Sys2Proof.Machine

/-- Both outcomes are next states, and these agree. -/
def AgreeingOutcomes (o p : Host.Outcome State Fault Refusal) : Prop :=
  ∃ s t : State, o = .next s ∧ p = .next t ∧ s.Agree t

section

variable {s t : State}

/-- Agreement survives equal responses. -/
theorem State.Agree.respondCode (h : s.Agree t) (c : Byte) (d : Word) :
    (respondCode c d s).Agree (respondCode c d t) :=
  { h with responses := by simp [h.responses] }

/-- Agreement survives the same fault. -/
theorem State.Agree.raise (h : s.Agree t) (e : FaultKind) : (raise e s).Agree (raise e t) :=
  { h with fault := rfl, responses := by simp [h.responses] }

/-- Agreement survives the echo of the latched fault. -/
theorem State.Agree.echoFault (h : s.Agree t) : (echoFault s).Agree (echoFault t) :=
  { h with responses := by simp [h.responses, h.fault] }

/-- Agreement survives a word that is no command: a fault or an echo (R124, R128). -/
theorem State.Agree.illegalCommand (h : s.Agree t) :
    (illegalCommand s).Agree (illegalCommand t) := by
  rw [illegalCommand_eq, illegalCommand_eq, ← h.fault]
  split
  · exact h.raise _
  · exact h.echoFault

/-- Two uses of the skeleton that check alike, and whose effects and data agree when the check
passes, agree (R127). -/
theorem answer_agree {check : State → Option FaultKind} {effect effect' : State → State}
    {data : State → Word} (h : s.Agree t) (hcheck : check s = check t)
    (heffect : check s = none → (effect s).Agree (effect' t))
    (hdata : check s = none → data s = data t) :
    AgreeingOutcomes (answer check effect data s) (answer check effect' data t) := by
  by_cases hf : s.fault = 0#8
  · have hf' : t.fault = 0#8 := h.fault ▸ hf
    cases hc : check s with
    | some e =>
      exact ⟨_, _, answer_raises hf hc, answer_raises hf' (hcheck ▸ hc), h.raise e⟩
    | none =>
      refine ⟨_, _, answer_executes hf hc, answer_executes hf' (hcheck ▸ hc), ?_⟩
      rw [← hdata hc]
      exact (heffect hc).respondCode _ _
  · exact ⟨_, _, answer_faulted hf, answer_faulted (h.fault ▸ hf), h.echoFault⟩

/-- Agreement survives a command that changes nothing (R40). -/
theorem State.Agree.noEffect (h : s.Agree t) : (noEffect s).Agree (noEffect t) := h

/-- Agreement survives a reset: the free values it draws are unspecified (R24). -/
theorem State.Agree.enterReset (h : s.Agree t) : (enterReset s).Agree (enterReset t) where
  poly := rfl
  width := rfl
  init := rfl
  tv := rfl
  rv := rfl
  fault := rfl
  inReset := h.inReset
  inputs := h.inputs
  responses := h.responses
  table := nofun
  crc := nofun

/-- Agreement survives generation, which writes the table from `POLY` and `WIDTH` (R93). -/
theorem State.Agree.generate (h : s.Agree t) : (generate s).Agree (generate t) :=
  { h with tv := rfl, table := fun _ => by simp [h.poly, h.width] }

/-- Agreement survives the loading of a preset (R94). -/
theorem State.Agree.loadPreset (h : s.Agree t) (n : BitVec 2) :
    (loadPreset n s).Agree (loadPreset n t) :=
  { h with poly := rfl, width := rfl, init := rfl, tv := rfl, table := fun _ => rfl }

/-- Agreement survives seeding, which writes `CRC` from the operand and `WIDTH` (R100, R101). -/
theorem State.Agree.seedCrc (h : s.Agree t) (v : Word) : (seedCrc v s).Agree (seedCrc v t) :=
  { h with rv := rfl, crc := fun _ => by simp [State.w, h.width] }

/-- Agreement survives `BYTE` in a block whose table is valid and whose register is seeded
(R102). -/
theorem State.Agree.stepCrc (h : s.Agree t) (htv : s.tv = true) (hrv : s.rv = true) (b : Byte) :
    (stepCrc b s).Agree (stepCrc b t) :=
  { h with crc := fun _ => by simp [State.w, h.width, h.table htv, h.crc hrv] }

/-- Agreement survives the taking of the same event. -/
theorem State.Agree.setInputs (h : s.Agree t) (rest : List PortEvent) :
    (setInputs rest s).Agree (setInputs rest t) :=
  { h with inputs := rfl }

/-- Every check depends on `TV`, `RV` and `WIDTH` only. -/
theorem State.Agree.checks (h : s.Agree t) :
    lockedCheck s = lockedCheck t ∧ tableCheck s = tableCheck t ∧
    seededCheck s = seededCheck t ∧ generateCheck s = generateCheck t := by
  simp [lockedCheck, tableCheck, seededCheck, generateCheck, legalWidth, State.w, h.tv, h.rv,
    h.width]

/-- An instruction reads `TABLE` only while `TV = 1` and `CRC` only while `RV = 1`. -/
theorem exec_agree (h : s.Agree t) (i : Instr) : AgreeingOutcomes (exec i s) (exec i t) := by
  obtain ⟨hlocked, htable, hseeded, hgenerate⟩ := h.checks
  have hnone : noCheck s = noCheck t := rfl
  cases i with
  | setpoly v => exact answer_agree h hlocked (fun _ => { h with poly := rfl }) fun _ => rfl
  | setwidth v => exact answer_agree h hlocked (fun _ => { h with width := rfl }) fun _ => rfl
  | setinit v => exact answer_agree h hlocked (fun _ => { h with init := rfl }) fun _ => rfl
  | gen => exact answer_agree h hgenerate (fun _ => h.generate) fun _ => rfl
  | preset n => exact answer_agree h hlocked (fun _ => h.loadPreset n) fun _ => rfl
  | ldinit => exact answer_agree h htable (fun _ => h.init ▸ h.seedCrc s.init) fun _ => rfl
  | seed v => exact answer_agree h htable (fun _ => h.seedCrc v) fun _ => rfl
  | byte b =>
    refine answer_agree h hseeded (fun hc => ?_) fun _ => rfl
    obtain ⟨htv, hrv⟩ := seededCheck_none.mp hc
    exact h.stepCrc htv hrv b
  | rdcrc =>
    exact answer_agree (data := readCrc) h hseeded (fun _ => h.noEffect) fun hc =>
      h.crc (seededCheck_none.mp hc).2
  | rdtbl b =>
    rw [exec_rdtbl, exec_rdtbl]
    exact answer_agree h htable (fun _ => h.noEffect) fun hc =>
      congrArg (readEntry · b) (h.table (tableCheck_none.mp hc))
  | rdpoly => exact answer_agree (data := readPoly) h hnone (fun _ => h.noEffect) fun _ => h.poly
  | rdwidth => exact answer_agree (data := readWidth) h hnone (fun _ => h.noEffect) fun _ => h.width
  | rdinit => exact answer_agree (data := readInit) h hnone (fun _ => h.noEffect) fun _ => h.init
  | rdstat =>
    have hdata : statusView s = statusView t := by simp [statusView, h.fault, h.rv, h.tv]
    exact ⟨_, _, exec_rdstat s, exec_rdstat t, hdata ▸ h.respondCode _ _⟩
  | rst => exact ⟨_, _, exec_rst s, exec_rst t, h.enterReset.respondCode _ _⟩

/-- A command word, legal or not, is answered alike. -/
theorem runWord_agree (h : s.Agree t) (c : CmdWord) :
    AgreeingOutcomes (runWord c s) (runWord c t) := by
  cases hd : decode c with
  | ok i =>
    rw [runWord_ok hd, runWord_ok hd]
    exact exec_agree h i
  | error e => exact ⟨_, _, runWord_error hd s, runWord_error hd t, h.illegalCommand⟩

/-- An event at the ports acts alike. -/
theorem portEvent_agree (h : s.Agree t) (e : PortEvent) :
    AgreeingOutcomes (portEvent e s) (portEvent e t) := by
  cases e with
  | command c =>
    cases hr : s.inReset with
    | false =>
      rw [portEvent_ready hr, portEvent_ready (h.inReset ▸ hr)]
      exact runWord_agree h c
    | true =>
      rw [portEvent_held hr, portEvent_held (h.inReset ▸ hr)]
      exact ⟨s, t, rfl, rfl, h⟩
  | resetLow f =>
    exact ⟨_, _, portEvent_resetLow f s, portEvent_resetLow f t,
      { h.enterReset with inReset := rfl }⟩
  | resetHigh =>
    exact ⟨_, _, portEvent_resetHigh s, portEvent_resetHigh t, { h with inReset := rfl }⟩

end

/-- Settles O42: both blocks take the same event, and an event acts alike on states that agree. -/
theorem unspecifiedNeverLeaks : Obligations.UnspecifiedNeverLeaks := by
  intro s t h
  cases hin : s.inputs with
  | nil => exact ⟨s, t, step_idle hin, step_idle (h.inputs ▸ hin), h⟩
  | cons e rest =>
    rw [step_of_inputs hin, step_of_inputs (h.inputs ▸ hin)]
    exact portEvent_agree (h.setInputs rest) e

end Sys2Proof.Machine

/-! ## The stream as an input -/

namespace Sys2Proof.Machine

/-- `t` with the stream `ins` waiting beside it and the answers `old` given before its own. -/
def State.beside (ins : List PortEvent) (old : List RspWord) (t : State) : State :=
  { t with inputs := ins, responses := old ++ t.responses }

/-- The outcome `p` is the next state `o` has, with the stream `ins` and the answers `old` beside
it, and `o` has no stream of its own. -/
def ActsBeside (ins : List PortEvent) (old : List RspWord)
    (o p : Host.Outcome State Fault Refusal) : Prop :=
  ∃ t : State, o = .next t ∧ t.inputs = [] ∧ p = .next (t.beside ins old)

section

variable (ins : List PortEvent) (old : List RspWord)

/-- A response goes behind the earlier answers. -/
theorem respondCode_beside (c : Byte) (d : Word) (s : State) :
    respondCode c d (s.beside ins old) = (respondCode c d s).beside ins old := by
  simp [respondCode, State.beside]

/-- A fault's answer goes behind the earlier answers. -/
theorem raise_beside (e : FaultKind) (s : State) :
    raise e (s.beside ins old) = (raise e s).beside ins old :=
  respondCode_beside ins old _ _ (setFault e s)

/-- The echo goes behind the earlier answers. -/
theorem echoFault_beside (s : State) :
    echoFault (s.beside ins old) = (echoFault s).beside ins old :=
  respondCode_beside ins old _ _ s

/-- The answer to a word that is no command goes behind the earlier answers. -/
theorem illegalCommand_beside (s : State) :
    illegalCommand (s.beside ins old) = (illegalCommand s).beside ins old := by
  rw [illegalCommand_eq, illegalCommand_eq, raise_beside, echoFault_beside,
    apply_ite (State.beside ins old)]
  rfl

variable {s : State}

/-- The skeleton reads neither the stream nor the earlier answers when its check, its effect and its
data do not (R127). -/
theorem answer_beside {check : State → Option FaultKind} {effect effect' : State → State}
    {data : State → Word} (hs : s.inputs = [])
    (hcheck : check (s.beside ins old) = check s)
    (hinputs : (effect s).inputs = s.inputs)
    (heffect : effect' (s.beside ins old) = (effect s).beside ins old)
    (hdata : data (s.beside ins old) = data s) :
    ActsBeside ins old (answer check effect data s)
      (answer check effect' data (s.beside ins old)) := by
  by_cases hf : s.fault = 0#8
  · cases hc : check s with
    | some e =>
      refine ⟨_, answer_raises hf hc, hs, ?_⟩
      rw [answer_raises (s := s.beside ins old) hf (hcheck.trans hc), raise_beside]
    | none =>
      refine ⟨_, answer_executes hf hc, hinputs.trans hs, ?_⟩
      rw [answer_executes (s := s.beside ins old) hf (hcheck.trans hc), hdata, heffect]
      exact congrArg _ (respondCode_beside ins old _ _ _)
  · refine ⟨_, answer_faulted hf, hs, ?_⟩
    rw [answer_faulted (s := s.beside ins old) hf, echoFault_beside]

/-- No instruction reads the stream or the earlier answers. -/
theorem exec_beside (hs : s.inputs = []) (i : Instr) :
    ActsBeside ins old (exec i s) (exec i (s.beside ins old)) := by
  cases i with
  | rdstat =>
    exact ⟨_, exec_rdstat s, hs, congrArg _ (respondCode_beside ins old 0 (statusView s) s)⟩
  | rst =>
    exact ⟨_, exec_rst s, hs, congrArg _ (respondCode_beside ins old 0 0 (enterReset s))⟩
  | setpoly v | setwidth v | setinit v | gen | preset n | ldinit | seed v | byte b | rdcrc | rdtbl b
  | rdpoly | rdwidth | rdinit =>
    simp only [exec_setpoly, exec_setwidth, exec_setinit, exec_gen, exec_preset, exec_ldinit,
      exec_seed, exec_byte, exec_rdcrc, exec_rdtbl, exec_rdpoly, exec_rdwidth, exec_rdinit]
    exact answer_beside ins old hs rfl rfl rfl rfl

/-- No word at the port reads the stream or the earlier answers. -/
theorem runWord_beside (hs : s.inputs = []) (c : CmdWord) :
    ActsBeside ins old (runWord c s) (runWord c (s.beside ins old)) := by
  cases hd : decode c with
  | ok i =>
    rw [runWord_ok hd, runWord_ok hd]
    exact exec_beside ins old hs i
  | error e =>
    refine ⟨_, runWord_error hd s, (illegalCommand_inputs s).trans hs, ?_⟩
    rw [runWord_error hd, illegalCommand_beside]

/-- No event reads the stream behind it or the earlier answers (R22). -/
theorem portEvent_beside (hs : s.inputs = []) (e : PortEvent) :
    ActsBeside ins old (portEvent e s) (portEvent e (s.beside ins old)) := by
  cases e with
  | command c =>
    cases hr : s.inReset with
    | false =>
      rw [portEvent_ready hr, portEvent_ready (s := s.beside ins old) hr]
      exact runWord_beside ins old hs c
    | true =>
      rw [portEvent_held hr, portEvent_held (s := s.beside ins old) hr]
      exact ⟨s, rfl, hs, rfl⟩
  | resetLow f => exact ⟨_, portEvent_resetLow f s, hs, rfl⟩
  | resetHigh => exact ⟨_, portEvent_resetHigh s, hs, rfl⟩

end

/-- An event acts on a block as on its engine alone, the stream and the answers beside it. -/
theorem engineStep_beside (e : PortEvent) (s : State) :
    ActsBeside s.inputs s.responses (engineStep e s.toEngine s.inReset s.freeCount)
      (portEvent e s) := by
  have hbeside : State.beside s.inputs s.responses
      ⟨s.toEngine, s.inReset, [], [], s.freeCount⟩ = s := by
    simp [State.beside]
  have h := portEvent_beside s.inputs s.responses
    (s := ⟨s.toEngine, s.inReset, [], [], s.freeCount⟩) rfl e
  rwa [hbeside] at h

/-- Settles O59: an event acts as on the engine alone, whatever stream and answers stand beside
it. -/
theorem commandsAreInputs : Obligations.CommandsAreInputs :=
  ⟨fun _ _ _ h => step_of_inputs h, engineStep_beside⟩

/-- An event gives the same state whatever stream waits behind it, and leaves that stream. -/
theorem portEvent_inputs (e : PortEvent) (s : State) : ∃ t : State, ∀ ins : List PortEvent,
    portEvent e { s with inputs := ins } = .next { t with inputs := ins } := by
  obtain ⟨t, ht, -, -⟩ := engineStep_beside e s
  refine ⟨{ t with responses := s.responses ++ t.responses }, fun ins => ?_⟩
  obtain ⟨u, hu, -, hacts⟩ := engineStep_beside e { s with inputs := ins }
  have htu : Host.Outcome.next t = .next u := ht.symm.trans hu
  cases htu
  exact hacts

/-- Settles O60, by induction on the stream: one event is one step, and acts without the stream. -/
theorem runIsFeed : Obligations.RunIsFeed := by
  intro s es
  induction es generalizing s with
  | nil => exact fun rest h => ⟨_, rfl, by rw [← show s.inputs = rest from h]; rfl⟩
  | cons e es ih =>
    intro rest h
    obtain ⟨t, ht⟩ := portEvent_inputs e s
    obtain ⟨u, hfeed, hrun⟩ := ih { t with inputs := es ++ rest } rest rfl
    refine ⟨u, ?_, ?_⟩
    · simpa only [feed, ht] using hfeed
    · rw [List.length_cons, run_succ ((step_of_inputs h).trans (ht _))]
      exact hrun

end Sys2Proof.Machine

/-! ## `RDSTAT`, `RST` and the reset state -/

namespace Sys2Proof.Machine

/-- The bits of `STATUS` (R19). -/
theorem statusView_getLsbD (s : State) (k : Nat) : (statusView s).getLsbD k =
    if k = 0 then s.tv else if k = 1 then s.rv else
      decide (8 ≤ k) && s.fault.getLsbD (k - 8) := by
  change (0#16 ++ s.fault ++ 0#6 ++ BitVec.ofBool s.rv ++ BitVec.ofBool s.tv).getLsbD k = _
  simp only [BitVec.getLsbD_append, BitVec.getLsbD_zero]
  rcases k with _ | _ | k
  · simp
  · simp
  · by_cases hk : k < 6
    · simp [hk, show ¬ 8 ≤ k + 2 by omega]
    · by_cases hk' : k - 6 < 8
      · simp [hk, hk', show 8 ≤ k + 2 by omega]
      · have := BitVec.getLsbD_of_ge s.fault (k - 6) (by omega)
        simp [hk, hk', this]

/-- The fields of `STATUS` (R19). -/
theorem statusView_fields (s : State) :
    (statusView s).getLsbD 0 = s.tv ∧ (statusView s).getLsbD 1 = s.rv ∧
    (statusView s).extractLsb' 2 6 = 0#6 ∧ (statusView s).extractLsb' 8 8 = s.fault ∧
    (statusView s).extractLsb' 16 16 = 0#16 := by
  refine ⟨statusView_getLsbD s 0, statusView_getLsbD s 1, ?_, ?_, ?_⟩
  · ext k hk
    simp [statusView_getLsbD, show ¬ 2 + k = 1 by omega, show ¬ 8 ≤ 2 + k by omega]
  · ext k hk
    simp [statusView_getLsbD, show ¬ 8 + k = 1 by omega, BitVec.getLsbD_eq_getElem hk]
  · ext k hk
    simp [statusView_getLsbD, show ¬ 16 + k = 1 by omega,
      BitVec.getLsbD_of_ge s.fault (16 + k - 8) (by omega)]

/-- Settles O24: `RDSTAT` makes no check, and `STATUS` has the fields of R19. -/
theorem rdstatCommand : Obligations.RdstatCommand := fun s =>
  ⟨runWord_admitted (m := .rdstat) (op := 0#32) rfl s,
    fun _ hop => runWord_malformed_raises (m := .rdstat) (admits_z_eq_false hop),
    fun _ hop => runWord_malformed_echoes (m := .rdstat) (admits_z_eq_false hop),
    statusView s, exec_rdstat s, statusView_fields s⟩

/-- Settles O25: `RST` makes no check, and `enterReset` gives the values of R24. -/
theorem rstCommand : Obligations.RstCommand := fun s =>
  ⟨runWord_admitted (m := .rst) (op := 0#32) rfl s,
    fun _ hop => runWord_malformed_raises (m := .rst) (admits_z_eq_false hop),
    fun _ hop => runWord_malformed_echoes (m := .rst) (admits_z_eq_false hop),
    _, _, _, exec_rst s⟩

/-- Settles O40: after reset `TV`, `RV` and `FAULT` are 0 and the pin is high. -/
theorem invariantAtReset : Obligations.InvariantAtReset where
  widthLegal := nofun
  tableGenerated := nofun
  registerSeeded := nofun
  faultInRange := Nat.zero_le 5
  heldAtReset := nofun

/-- A reset leaves what R24 gives, whatever the state was. -/
theorem enterReset_agree (s : State) : (enterReset s).Agree { State.reset with
    inReset := s.inReset, inputs := s.inputs, responses := s.responses } where
  poly := rfl
  width := rfl
  init := rfl
  tv := rfl
  rv := rfl
  fault := rfl
  inReset := rfl
  inputs := rfl
  responses := rfl
  table := nofun
  crc := nofun

/-- Settles O43: `RST` and the reset pin share `enterReset`, which agrees with the reset state. -/
theorem resetValues : Obligations.ResetValues :=
  ⟨⟨rfl, rfl, rfl, rfl, rfl, rfl, rfl⟩, fun s =>
    ⟨_, exec_rst s, (enterReset_agree s).respondCode 0#8 0#32⟩⟩

end Sys2Proof.Machine

/-! ## `PRESET` and the writers of the table -/

namespace Sys2Proof.Machine

/-- A row's word in a Faulted block, malformed or not: the echo, for a row whose instruction echoes
(R128). -/
theorem runWord_row_echoes {m : Mnemonic} {op : Word} {s : State} (hf : s.fault ≠ 0#8)
    (h : exec (buildInstr m op) s = .next (echoFault s)) : runWord (opcodeOf m ++ op) s =
      .next { s with responses := s.responses ++ [s.fault ++ 0#32] } := by
  cases hop : m.format.admits op with
  | true => exact (runWord_admitted hop s).trans h
  | false => exact runWord_malformed_echoes hop hf

/-- Format N admits an operand below 4 only (R51). -/
theorem admits_n_eq_false {op : Word} (h : 4 ≤ op.toNat) : Format.n.admits op = false := by
  simpa [Format.admits] using h

/-- The word of a preset index executes `PRESET` of it (R94). -/
theorem runWord_preset (n : BitVec 2) (s : State) :
    runWord (0x05#8 ++ (0#30 ++ n)) s = exec (.preset n) s := by
  obtain ⟨-, -, hop⟩ := Sys2Proof.Laws.Fields.preset n
  rw [zero_append_index]
  refine (runWord_admitted (m := .preset) (op := n.setWidth 32) hop s).trans ?_
  simp only [buildInstr, extract_setWidth_index]

/-- The ROM holds the four triples of R33. -/
theorem presetRom_of_mem {n : BitVec 2} {p w v : Word}
    (h : (n, p, w, v) ∈ [(0#2, 0x04C11DB7#32, 32#32, 0xFFFFFFFF#32),
      (1#2, 0x1EDC6F41#32, 32#32, 0xFFFFFFFF#32), (2#2, 0x1021#32, 16#32, 0xFFFF#32),
      (3#2, 0x07#32, 8#32, 0xFF#32)]) : presetRom n = (p, w, v) := by
  simp only [List.mem_cons, List.not_mem_nil, Prod.mk.injEq, or_false] at h
  rcases h with ⟨rfl, rfl, rfl, rfl⟩ | ⟨rfl, rfl, rfl, rfl⟩ | ⟨rfl, rfl, rfl, rfl⟩ |
    ⟨rfl, rfl, rfl, rfl⟩ <;> rfl

/-- The widths of the ROM fit the table's storage (R30, R33). -/
theorem presetRom_width_le (n : BitVec 2) : (presetRom n).2.1.toNat ≤ 32 := by
  rcases presetRom_width n with h | h | h <;> omega

/-- `PRESET` in an Unconfigured block loads the ROM's triple and its table (R94). -/
theorem exec_preset_executes {n : BitVec 2} {s : State} (hf : s.fault = 0#8) (htv : s.tv = false) :
    exec (.preset n) s = .next { s with
      poly := (presetRom n).1, width := (presetRom n).2.1, init := (presetRom n).2.2
      table := generatedTable (presetRom n).1 (presetRom n).2.1, tv := true
      responses := s.responses ++ [0#8 ++ 0#32] } :=
  answer_executes hf (lockedCheck_none.mpr htv)

/-- Settles O15: the lock is the one check of `PRESET`, and its effect writes the ROM's triple and
the table generated from it. -/
theorem presetCommand : Obligations.PresetCommand := by
  intro s
  refine ⟨fun n => runWord_preset n s,
    fun op hop => runWord_malformed_raises (m := .preset) (admits_n_eq_false hop),
    fun hf op => runWord_row_echoes (m := .preset) hf (answer_faulted hf),
    fun hf htv n => answer_raises hf (lockedCheck_some.mpr ⟨htv, rfl⟩), ?_⟩
  intro hf htv n p w v hrow
  have hentry := generatedTable_entry (p := (presetRom n).1) (presetRom_width_le n)
  have hexec := exec_preset_executes (n := n) hf htv
  rw [presetRom_of_mem hrow] at hentry hexec
  exact ⟨generatedTable p w, hentry, hexec⟩

/-- Settles O37: of the changes that are no reset only `GEN` and `PRESET` write `TABLE`, and they set
`TV`. -/
theorem tableWriters : Obligations.TableWriters := by
  intro s t h
  cases step_change h with
  | keeps engine | configures _ _ _ _ _ engine | seeds _ _ _ _ engine
  | advances _ _ _ _ _ engine =>
    exact .inl (by simp [engine])
  | faults _ _ _ _ _ state => exact .inl (by simp [state])
  | resets next => exact .inr (.inl next)
  | generates _ _ _ healthy unlocked next _ engine =>
    exact .inr (.inr ⟨healthy, unlocked, by simp [engine], next⟩)

end Sys2Proof.Machine

/-! ## Read commands and sequences of commands

No command reads the answers given before it (`exec_beside`), so a command, and with it a sequence of
them, does the same whatever stands in `State.responses`. -/

namespace Sys2Proof.Machine

/-- `s` with the answers `l` given before. -/
def setResponses (l : List RspWord) (s : State) : State := { s with responses := l }

theorem setResponses_setResponses (l m : List RspWord) (s : State) :
    setResponses l (setResponses m s) = setResponses l s := rfl

/-- A command does the same whatever was answered before, and answers behind it. -/
theorem exec_setResponses (i : Instr) (s : State) : ∃ (t : State) (out : List RspWord),
    ∀ old, exec i (setResponses old s) = .next (setResponses (old ++ out) t) := by
  obtain ⟨t, ht, -, -⟩ := exec_beside [] [] (s := setInputs [] (setResponses [] s)) rfl i
  refine ⟨setInputs s.inputs t, t.responses, fun old => ?_⟩
  obtain ⟨u, hu, -, hacts⟩ :=
    exec_beside s.inputs old (s := setInputs [] (setResponses [] s)) rfl i
  have hbeside : (setInputs [] (setResponses [] s)).beside s.inputs old = setResponses old s := by
    simp [State.beside, setInputs, setResponses]
  have htu : Host.Outcome.next t = .next u := ht.symm.trans hu
  cases htu
  exact hbeside ▸ hacts

/-- Every command completes (R134). -/
theorem exec_next (i : Instr) (s : State) : ∃ t, exec i s = .next t := by
  obtain ⟨t, out, h⟩ := exec_setResponses i s
  exact ⟨_, h s.responses⟩

/-- A sequence of commands does the same whatever was answered before, and answers behind it. -/
theorem execAll_setResponses (is : List Instr) (s : State) : ∃ (t : State) (out : List RspWord),
    ∀ old, execAll is (setResponses old s) = .next (setResponses (old ++ out) t) := by
  induction is generalizing s with
  | nil => exact ⟨s, [], fun old => by rw [List.append_nil]; rfl⟩
  | cons i rest ih =>
    obtain ⟨u, first, hu⟩ := exec_setResponses i s
    obtain ⟨t, out, ht⟩ := ih u
    exact ⟨t, first ++ out, fun old => by rw [execAll_cons (hu old), ht, List.append_assoc]⟩

/-- Every sequence of commands completes (R134). -/
theorem execAll_next (is : List Instr) (s : State) : ∃ t, execAll is s = .next t := by
  obtain ⟨t, out, h⟩ := execAll_setResponses is s
  exact ⟨_, h s.responses⟩

/-- A sequence runs in two parts, one after the other. -/
theorem execAll_append {xs ys : List Instr} {s u : State} (h : execAll xs s = .next u) :
    execAll (xs ++ ys) s = execAll ys u := by
  induction xs generalizing s with
  | nil => cases h; rfl
  | cons i rest ih =>
    obtain ⟨t, ht⟩ := exec_next i s
    rw [execAll_cons ht] at h
    rw [List.cons_append, execAll_cons ht, ih h]

/-- A command that only answers gives the same answer again (R40). -/
theorem exec_again {i : Instr} {s : State} {w : RspWord}
    (h : exec i s = .next (setResponses (s.responses ++ [w]) s)) (old : List RspWord) :
    exec i (setResponses old s) = .next (setResponses (old ++ [w]) s) := by
  obtain ⟨t, out, hall⟩ := exec_setResponses i s
  have heq : setResponses (s.responses ++ [w]) s = setResponses (s.responses ++ out) t := by
    simpa using h.symm.trans (hall s.responses)
  have hout : out = [w] := by simpa [setResponses] using (congrArg State.responses heq).symm
  have hstate : setResponses (old ++ [w]) t = setResponses (old ++ [w]) s := by
    simpa only [setResponses_setResponses] using congrArg (setResponses (old ++ [w])) heq.symm
  rw [hall old, hout, hstate]

/-- A read command that raises no fault only answers (R40). -/
theorem exec_read_answers {i : Instr} {s t : State} (hi : isRead i = true)
    (h : exec i s = .next t) (hf : t.fault = s.fault) :
    ∃ w : RspWord, t = setResponses (s.responses ++ [w]) s := by
  rcases exec_cases h with ⟨-, -, -, rfl⟩ | ⟨healthy, e, rfl⟩ | ⟨-, -, d, rfl⟩ |
    ⟨-, -, v, rfl, -⟩ | ⟨-, -, v, rfl, -⟩ | ⟨-, -, v, rfl, -⟩ | ⟨-, -, -, rfl, -⟩ |
    ⟨-, -, n, rfl, -⟩ | ⟨-, -, rfl, -⟩ | ⟨-, -, v, rfl, -⟩ | ⟨-, -, -, b, rfl, -⟩ | ⟨rfl, -⟩
  case inl => exact ⟨_, rfl⟩
  case inr.inl => exact absurd (hf.trans healthy) (faultCode_ne_zero e)
  case inr.inr.inl => exact ⟨_, rfl⟩
  all_goals nomatch hi

/-- Settles O39: a read only answers, and what only answers answers the same again. -/
theorem readsHaveNoSideEffect : Obligations.ReadsHaveNoSideEffect := by
  intro i s t hi h hf
  obtain ⟨w, rfl⟩ := exec_read_answers hi h hf
  exact ⟨w, rfl, exec_again h _⟩

/-- A read command in a Ready and seeded block passes its checks and answers `OK` (R127). -/
theorem exec_read_executes {r : Instr} {s : State} (hr : isRead r = true) (hf : s.fault = 0#8)
    (htv : s.tv = true) (hrv : s.rv = true) : ∃ d, exec r s = .next (respond .ok d s) := by
  cases r with
  | rdcrc => exact ⟨_, answer_executes hf (seededCheck_none.mpr ⟨htv, hrv⟩)⟩
  | rdtbl b => exact ⟨_, (exec_rdtbl s b).trans (answer_executes hf (tableCheck_none.mpr htv))⟩
  | rdpoly | rdwidth | rdinit => exact ⟨_, answer_executes hf noCheck_none⟩
  | rdstat => exact ⟨_, exec_rdstat s⟩
  | setpoly _ | setwidth _ | setinit _ | gen | preset _ | ldinit | seed _ | byte _ | rst =>
    nomatch hr

/-- Settles O57: the read adds one answer, and the commands behind it do the same whatever was
answered before. -/
theorem readsInsertedAnywhere : Obligations.ReadsInsertedAnywhere := by
  intro before after r s u hr hbefore hf htv hrv
  obtain ⟨d, hread⟩ := exec_read_executes hr hf htv hrv
  obtain ⟨t, out, hafter⟩ := execAll_setResponses after u
  refine ⟨setResponses (u.responses ++ out) t, d, out, ?_, rfl, ?_⟩
  · rw [execAll_append hbefore]
    exact hafter u.responses
  · rw [execAll_append hbefore, execAll_cons hread]
    exact hafter (u.responses ++ [0#8 ++ d])

end Sys2Proof.Machine

/-! ## Interleaved streams -/

namespace Sys2Proof.Machine

/-- `t` is `s` but for `CRC`, `FAULT` and answers given since: what other streams can do to a seeded
block (R45). -/
def DiffersInStream (s t : State) : Prop :=
  ∃ (c : Word) (f : Byte) (out : List RspWord),
    t = { s with crc := c, fault := f, responses := s.responses ++ out }

theorem DiffersInStream.refl (s : State) : DiffersInStream s s :=
  ⟨s.crc, s.fault, [], by rw [List.append_nil]⟩

theorem DiffersInStream.trans {s t u : State} (hst : DiffersInStream s t)
    (htu : DiffersInStream t u) : DiffersInStream s u := by
  obtain ⟨_, _, _, rfl⟩ := hst
  obtain ⟨c, f, out, rfl⟩ := htu
  exact ⟨c, f, _, by rw [List.append_assoc]⟩

theorem DiffersInStream.tv {s t : State} (h : DiffersInStream s t) : t.tv = s.tv := by
  obtain ⟨_, _, _, rfl⟩ := h
  rfl

theorem DiffersInStream.rv {s t : State} (h : DiffersInStream s t) : t.rv = s.rv := by
  obtain ⟨_, _, _, rfl⟩ := h
  rfl

/-- Seeding a block that is seeded writes `CRC` only (R101). -/
theorem seedCrc_of_seeded {s : State} (hrv : s.rv = true) (v : Word) :
    seedCrc v s = setCrc (BitVec.ofNat 32 (mask s.w v.toNat)) s := by
  simp [seedCrc, setCrc, hrv]

/-- A command that is no reset touches nothing but `CRC`, `FAULT` and the answers of a block whose
table is valid and whose register is seeded. -/
theorem exec_differsInStream {i : Instr} {s t : State} (hi : i ≠ .rst) (htv : s.tv = true)
    (hrv : s.rv = true) (h : exec i s = .next t) : DiffersInStream s t := by
  rcases exec_cases h with ⟨-, -, -, rfl⟩ | ⟨-, e, rfl⟩ | ⟨-, -, d, rfl⟩ |
    ⟨-, unlocked, -⟩ | ⟨-, unlocked, -⟩ | ⟨-, unlocked, -⟩ | ⟨-, unlocked, -⟩ |
    ⟨-, unlocked, -⟩ | ⟨-, -, -, rfl⟩ | ⟨-, -, v, -, rfl⟩ | ⟨-, -, -, b, -, rfl⟩ | ⟨rst, -⟩
  · exact ⟨_, _, _, rfl⟩
  · exact ⟨_, _, _, rfl⟩
  · exact ⟨_, _, _, rfl⟩
  iterate 5 exact absurd htv (by simp [unlocked])
  · rw [seedCrc_of_seeded hrv]
    exact ⟨_, _, _, rfl⟩
  · rw [seedCrc_of_seeded hrv]
    exact ⟨_, _, _, rfl⟩
  · exact ⟨_, _, _, rfl⟩
  · exact absurd rst hi

/-- A sequence of commands without a reset likewise. -/
theorem execAll_differsInStream {is : List Instr} {s t : State} (his : .rst ∉ is)
    (htv : s.tv = true) (hrv : s.rv = true) (h : execAll is s = .next t) :
    DiffersInStream s t := by
  induction is generalizing s with
  | nil => cases h; exact .refl _
  | cons i rest ih =>
    obtain ⟨hi, hrest⟩ := List.ne_and_not_mem_of_not_mem_cons his
    obtain ⟨u, hu⟩ := exec_next i s
    rw [execAll_cons hu] at h
    have hsu := exec_differsInStream hi.symm htv hrv hu
    exact hsu.trans (ih hrest (hsu.tv.trans htv) (hsu.rv.trans hrv) h)

/-- The value of a seeded register is its own mask, so `SEED` of it restores it (R21, R101). -/
theorem ofNat_mask_crc {s : State} (hs : s.RegisterSeeded) (hrv : s.rv = true) :
    BitVec.ofNat 32 (mask s.w s.crc.toNat) = s.crc := by
  rw [mask_of_lt (hs hrv).2, BitVec.ofNat_toNat, BitVec.setWidth_eq]

/-- `SEED` that leaves the block healthy found it healthy and executed. -/
theorem exec_seed_healthy {v : Word} {s t : State} (h : exec (.seed v) s = .next t)
    (ht : t.fault = 0#8) : s.fault = 0#8 ∧ t = respond .ok 0 (seedCrc v s) := by
  rcases answer_cases h with ⟨hf, rfl⟩ | ⟨-, e, -, rfl⟩ | ⟨hf, -, rfl⟩
  · exact absurd ht hf
  · exact absurd ht (faultCode_ne_zero e)
  · exact ⟨hf, rfl⟩

/-- `SEED` of the value of a seeded register, in a block that differs from its own in the stream
only: if it leaves no fault, the register has its value back (R45, R101). -/
theorem DiffersInStream.seed_restores {s u t : State} (h : DiffersInStream s u)
    (hs : s.RegisterSeeded) (hf : s.fault = 0#8) (hrv : s.rv = true)
    (hseed : exec (.seed s.crc) u = .next t) (ht : t.fault = 0#8) :
    ∃ out, t = { s with responses := s.responses ++ out } := by
  obtain ⟨hu, rfl⟩ := exec_seed_healthy hseed ht
  rw [seedCrc_of_seeded (h.rv.trans hrv)]
  obtain ⟨c, f, out, rfl⟩ := h
  have hfault : f = s.fault := hu.trans hf.symm
  refine ⟨out ++ [0#8 ++ 0#32], ?_⟩
  rw [hfault, ← List.append_assoc]
  exact congrArg (fun v => respond .ok 0 (setCrc v { s with responses := s.responses ++ out }))
    (ofNat_mask_crc hs hrv)

/-- Settles O58: the other streams leave all but `CRC`, `FAULT` and the answers, and `SEED` of the
value saved writes `CRC` back. -/
theorem interleavedStreams : Obligations.InterleavedStreams := by
  intro s others hs hf hrv hothers
  have htv : s.tv = true := (hs.registerSeeded hrv).1
  have hsave : exec .rdcrc s = .next (respond .ok s.crc s) :=
    answer_executes hf (seededCheck_none.mpr ⟨htv, hrv⟩)
  obtain ⟨u, hu⟩ := execAll_next others (respond .ok s.crc s)
  obtain ⟨t, hseed⟩ := exec_next (.seed s.crc) u
  refine ⟨t, ?_, fun ht => ?_⟩
  · rw [execAll_append ((execAll_cons hsave).trans hu), execAll_cons hseed]
    rfl
  · have hdiffers : DiffersInStream (respond .ok s.crc s) u :=
      execAll_differsInStream hothers htv hrv hu
    exact hdiffers.seed_restores hs.registerSeeded hf hrv hseed ht

end Sys2Proof.Machine

/-! ## The encoding -/

namespace Sys2Proof

/-- The two fields of every instruction's word, and its operand, are those of its row. -/
theorem fields_statement : ∀ i : Instr, Laws.Fields.Statement i
  | .setpoly imm => Laws.Fields.setpoly imm
  | .setwidth imm => Laws.Fields.setwidth imm
  | .setinit imm => Laws.Fields.setinit imm
  | .gen => Laws.Fields.gen
  | .preset n => Laws.Fields.preset n
  | .ldinit => Laws.Fields.ldinit
  | .seed imm => Laws.Fields.seed imm
  | .byte b => Laws.Fields.byte b
  | .rdcrc => Laws.Fields.rdcrc
  | .rdtbl b => Laws.Fields.rdtbl b
  | .rdpoly => Laws.Fields.rdpoly
  | .rdwidth => Laws.Fields.rdwidth
  | .rdinit => Laws.Fields.rdinit
  | .rdstat => Laws.Fields.rdstat
  | .rst => Laws.Fields.rst

/-- Every instruction's operand fits its format: it has the field's width (R51). -/
theorem instr_wellFormed (i : Instr) : i.WellFormed = true := (fields_statement i).2.2

/-- The decoder's fields of an instruction's operand are the instruction's own. -/
theorem buildInstr_mnemonic_operand (i : Instr) : buildInstr i.mnemonic i.operand = i := by
  cases i with
  | preset n => exact congrArg Instr.preset (extract_setWidth_index n)
  | byte b => exact congrArg Instr.byte (extract_setWidth_byte b)
  | rdtbl b => exact congrArg Instr.rdtbl (extract_setWidth_byte b)
  | setpoly _ | setwidth _ | setinit _ | gen | ldinit | seed _ | rdcrc | rdpoly | rdwidth | rdinit
  | rdstat | rst => rfl

/-- Decoding undoes encoding (R53). -/
theorem decode_encode (i : Instr) : decode (encode i) = .ok i := by
  have hadmits : i.mnemonic.format.admits i.operand = true := instr_wellFormed i
  calc decode (encode i) = decode (opcodeOf i.mnemonic ++ i.operand) := rfl
    _ = .ok (buildInstr i.mnemonic i.operand) := by rw [decode_append, if_pos hadmits]
    _ = .ok i := by rw [buildInstr_mnemonic_operand]

/-- Settles O1: the operand of an instruction fits its format, so the decoder takes its row and
builds it again from its fields. -/
theorem decodeOfEncode : Obligations.DecodeOfEncode :=
  fun i => ⟨instr_wellFormed i, decode_encode i⟩

/-- Settles O2: what a word decodes to has the word's own opcode and operand. -/
theorem encodeOfDecode : Obligations.EncodeOfDecode := by
  intro c i hd
  obtain ⟨m, hopcode, hadmits, rfl⟩ := decode_ok hd
  obtain ⟨hmnemonic, hoperand⟩ := buildInstr_fields hadmits
  calc encode (buildInstr m (operandField c))
      = opcodeOf (buildInstr m (operandField c)).mnemonic ++
          (buildInstr m (operandField c)).operand := rfl
    _ = opcodeField c ++ operandField c := by rw [hmnemonic, hoperand, hopcode]
    _ = c := append_fields c

/-- Settles O4: each of these words is the word of its command, and decoding undoes encoding. -/
theorem operandFieldsAsTheyStand : Obligations.OperandFieldsAsTheyStand := by
  refine ⟨fun op => ⟨decode_encode (.setpoly op), decode_encode (.setwidth op),
      decode_encode (.setinit op), decode_encode (.seed op)⟩, fun b => ?_, fun n => ?_,
    decode_encode .gen, decode_encode .ldinit, decode_encode .rdcrc, decode_encode .rdpoly,
    decode_encode .rdwidth, decode_encode .rdinit, decode_encode .rdstat, decode_encode .rst⟩
  · rw [zero_append_byte]
    exact ⟨decode_encode (.byte b), decode_encode (.rdtbl b)⟩
  · rw [zero_append_index]
    exact decode_encode (.preset n)

/-- Settles O5: seven of the words are those of their commands; the two others are no command's. -/
theorem sampleWordsDecode : Obligations.SampleWordsDecode :=
  ⟨decode_encode (.setpoly 0x1021), decode_encode .gen, decode_encode (.preset 3),
    decode_encode (.seed 0x5349), decode_encode (.byte 0x31), decode_encode (.rdtbl 255),
    decode_encode .rst, decode_append .byte 0x100, decode_illegal (o := 0) rfl 0⟩

/-! ### The opcode map as match and mask -/

/-- The row of a mnemonic: its opcode under the opcode's bits and its format's reserved bits. -/
def rowOf (m : Mnemonic) : OpcodeRow :=
  ⟨m, opcodeOf m ++ 0#32, 0xFF#8 ++ reservedMask m.format⟩

/-- The opcode map of R53 is that of `opcodeOf` and `reservedMask`, row by row. -/
theorem opcodeRows_eq : opcodeRows = Mnemonic.all.map rowOf := rfl

theorem mem_all (m : Mnemonic) : m ∈ Mnemonic.all := by
  cases m <;> decide

/-- Different rows have different opcodes. -/
theorem opcodeOf_injective : Function.Injective opcodeOf := fun m m' h =>
  Option.some.inj (by rw [← mnemonicOf_opcodeOf m, ← mnemonicOf_opcodeOf m', h])

/-- Two words are equal when their fields are. -/
theorem append_eq_append_iff {o o' : Byte} {op op' : Word} :
    (o ++ op : CmdWord) = o' ++ op' ↔ o = o' ∧ op = op' := by
  constructor
  · intro h
    exact ⟨by simpa using congrArg opcodeField h, by simpa using congrArg operandField h⟩
  · rintro ⟨rfl, rfl⟩
    rfl

/-- A word selects a row exactly when it has its opcode and its format admits the operand. -/
theorem selects_rowOf_iff (c : CmdWord) (m : Mnemonic) :
    c &&& (rowOf m).mask = (rowOf m).pattern ↔
      opcodeField c = opcodeOf m ∧ m.format.admits (operandField c) = true := by
  have hand : c &&& (rowOf m).mask =
      (opcodeField c &&& 0xFF#8) ++ (operandField c &&& reservedMask m.format) := by
    rw [← BitVec.and_append, append_fields]
    rfl
  have hones : opcodeField c &&& 0xFF#8 = opcodeField c := BitVec.and_allOnes
  have hpattern : (rowOf m).pattern = opcodeOf m ++ 0#32 := rfl
  rw [hand, hones, hpattern, append_eq_append_iff, ← reservedZero_eq_admits, reservedZero,
    beq_iff_eq]
  rfl

/-- A word decodes to an instruction of a row under the same condition. -/
theorem decodes_to_row_iff (c : CmdWord) (m : Mnemonic) :
    (∃ i, decode c = .ok i ∧ i.mnemonic = m) ↔
      opcodeField c = opcodeOf m ∧ m.format.admits (operandField c) = true := by
  constructor
  · rintro ⟨i, hd, rfl⟩
    obtain ⟨m, hopcode, hadmits, rfl⟩ := decode_ok hd
    rw [(buildInstr_fields hadmits).1]
    exact ⟨hopcode, hadmits⟩
  · rintro ⟨hopcode, hadmits⟩
    refine ⟨_, ?_, (buildInstr_fields hadmits).1⟩
    rw [← append_fields c, hopcode, operandField_append, decode_append, if_pos hadmits]

/-- Settles O3: selecting a row and decoding to it are the same condition on opcode and operand, and
no two rows share an opcode. -/
theorem decodeSelectsOpcodeRow : Obligations.DecodeSelectsOpcodeRow := by
  rw [Obligations.DecodeSelectsOpcodeRow, opcodeRows_eq]
  simp only [List.forall_mem_map]
  refine ⟨fun c m _ => (selects_rowOf_iff c m).trans (decodes_to_row_iff c m).symm, ?_,
    fun c i _ => ⟨rowOf i.mnemonic, List.mem_map_of_mem (mem_all _), rfl⟩⟩
  intro c m _ m' _ h h'
  obtain ⟨hopcode, -⟩ := (selects_rowOf_iff c m).mp h
  obtain ⟨hopcode', -⟩ := (selects_rowOf_iff c m').mp h'
  rw [opcodeOf_injective (hopcode.symm.trans hopcode')]

end Sys2Proof

/-! ## Words that are no command -/

namespace Sys2Proof.Machine

/-- The fifteen opcodes, and no others, select a row (R54). -/
theorem mnemonicOf_eq_none {o : Byte} (h : o ∉ Mnemonic.all.map opcodeOf) :
    mnemonicOf? o = none := by
  simpa [mnemonicOf?] using h

/-- Settles O6: an opcode of no row does not decode, whatever the operand. -/
theorem illegalOpcodesFault : Obligations.IllegalOpcodesFault := by
  intro o op s ho hf
  rw [runWord_error (decode_illegal (mnemonicOf_eq_none ho) op), illegalCommand_eq, if_pos hf]
  rfl

/-- The opcodes of the rows of one format. -/
def opcodesOf (f : Format) : List Byte :=
  (Mnemonic.all.filter fun m => m.format = f).map opcodeOf

/-- An operand outside a format faults under every opcode of that format (R55). -/
theorem runWord_opcodesOf_raises {f : Format} {op : Word} {s : State} (h : f.admits op = false)
    (hf : s.fault = 0#8) : ∀ o ∈ opcodesOf f, runWord (o ++ op) s =
      .next { s with fault := 3#8, responses := s.responses ++ [3#8 ++ 0#32] } := by
  refine List.forall_mem_map.mpr fun m hm => ?_
  have hformat : m.format = f := by simpa using (List.mem_filter.mp hm).2
  exact runWord_malformed_raises (hformat ▸ h) hf

/-- Format B admits an operand below 256 only (R51). -/
theorem admits_b_eq_false {op : Word} (h : 256 ≤ op.toNat) : Format.b.admits op = false := by
  simpa [Format.admits] using h

/-- Settles O7: these operands are outside the formats Z, B and N, and each clause lists the opcodes
of one format. -/
theorem reservedBitsFault : Obligations.ReservedBitsFault := fun _ _ hf =>
  ⟨fun hop => runWord_opcodesOf_raises (admits_z_eq_false hop) hf,
    fun hop => runWord_opcodesOf_raises (admits_b_eq_false hop) hf,
    fun hop => runWord_malformed_raises (m := .preset) (admits_n_eq_false hop) hf⟩

end Sys2Proof.Machine

/-! ## Responses -/

namespace Sys2Proof.Machine

/-- The status of a response word (R52). -/
@[simp] theorem statusField_append (c : Byte) (d : Word) : statusField (c ++ d) = c :=
  extract_append_high c d

/-- The data of a response word (R52). -/
@[simp] theorem dataField_append (c : Byte) (d : Word) : dataField (c ++ d) = d :=
  extract_append_low c d

/-- `t` has one answer more than `s`, `{c, d}`, and the same stream; the status is `OK` or the code
in `FAULT`, and then there are no data. -/
structure Answered (s t : State) (c : Byte) (d : Word) : Prop where
  inputs : t.inputs = s.inputs
  responses : t.responses = s.responses ++ [c ++ d]
  status : c = 0#8 ∨ c = t.fault ∧ d = 0#32

/-- Every command answers once, without data unless it is a read (R52, R134). -/
theorem exec_answered {i : Instr} {s t : State} (h : exec i s = .next t) :
    ∃ c d, Answered s t c d ∧ (isRead i = false → d = 0#32) := by
  rcases exec_cases h with ⟨-, -, -, rfl⟩ | ⟨-, e, rfl⟩ | ⟨-, hread, d, rfl⟩ |
    ⟨-, -, v, -, rfl⟩ | ⟨-, -, v, -, rfl⟩ | ⟨-, -, v, -, rfl⟩ | ⟨-, -, -, -, rfl⟩ |
    ⟨-, -, n, -, rfl⟩ | ⟨-, -, -, rfl⟩ | ⟨-, -, v, -, rfl⟩ | ⟨-, -, -, b, -, rfl⟩ | ⟨-, rfl⟩
  case inl => exact ⟨s.fault, 0#32, ⟨rfl, rfl, .inr ⟨rfl, rfl⟩⟩, fun _ => rfl⟩
  case inr.inl => exact ⟨faultCode e, 0#32, ⟨rfl, rfl, .inr ⟨rfl, rfl⟩⟩, fun _ => rfl⟩
  case inr.inr.inl => exact ⟨0#8, d, ⟨rfl, rfl, .inl rfl⟩, fun hno => by simp [hread] at hno⟩
  all_goals exact ⟨0#8, 0#32, ⟨rfl, rfl, .inl rfl⟩, fun _ => rfl⟩

/-- Every word at the port answers once (R134). -/
theorem runWord_answered {c : CmdWord} {s t : State} (h : runWord c s = .next t) :
    ∃ code d, Answered s t code d := by
  rcases runWord_cases h with ⟨i, -, he⟩ | ⟨-, -, rfl⟩ | ⟨-, -, rfl⟩
  · obtain ⟨code, d, ha, -⟩ := exec_answered he
    exact ⟨code, d, ha⟩
  · exact ⟨s.fault, 0#32, rfl, rfl, .inr ⟨rfl, rfl⟩⟩
  · exact ⟨faultCode .illegalCommand, 0#32, rfl, rfl, .inr ⟨rfl, rfl⟩⟩

/-- Every word at the port completes, a command or not (R134). -/
theorem runWord_next (c : CmdWord) (s : State) : ∃ t, runWord c s = .next t := by
  cases hd : decode c with
  | ok i => exact runWord_ok hd s ▸ exec_next i s
  | error e => exact ⟨_, runWord_error hd s⟩

/-- Settles O30: the word at the port completes and answers once, and the step keeps `FAULT` in
range. -/
theorem everyCommandAnswered : Obligations.EveryCommandAnswered := by
  intro s c rest hready hin hfault
  obtain ⟨t, hrun⟩ := runWord_next c (setInputs rest s)
  have hstep : step s = .next t := by
    rw [step_of_inputs hin, portEvent_ready (s := setInputs rest s) hready, hrun]
  have hrange : t.fault.toNat ≤ 5 := (step_change hstep).faultInRange hfault
  obtain ⟨code, d, ha⟩ := runWord_answered hrun
  refine ⟨t, code ++ d, hstep, ha.inputs, ha.responses, ?_, ?_⟩
  · rw [statusField_append]
    rcases ha.status with rfl | ⟨rfl, -⟩
    · exact Nat.zero_le 5
    · exact hrange
  · simpa only [statusField_append, dataField_append] using ha.status

/-- Settles O31: an answer has no data unless a read gives `OK`. -/
theorem responseDataZero : Obligations.ResponseDataZero := by
  intro i s t h
  obtain ⟨c, d, ha, hdata⟩ := exec_answered h
  refine ⟨c ++ d, ha.responses, ?_⟩
  rw [statusField_append, dataField_append]
  rintro (hno | hc)
  · exact hdata hno
  · exact (ha.status.resolve_left hc).2

end Sys2Proof.Machine

/-! ## `PRESET` is `CONFIG` -/

namespace Sys2Proof.Machine

section

variable {s : State}

/-- `SETPOLY` in an Unconfigured block (R90). -/
theorem exec_setpoly_executes (hf : s.fault = 0#8) (htv : s.tv = false) (p : Word) :
    exec (.setpoly p) s = .next (respond .ok 0 (setPoly p s)) :=
  answer_executes hf (lockedCheck_none.mpr htv)

/-- `SETWIDTH` in an Unconfigured block (R91). -/
theorem exec_setwidth_executes (hf : s.fault = 0#8) (htv : s.tv = false) (w : Word) :
    exec (.setwidth w) s = .next (respond .ok 0 (setWidth w s)) :=
  answer_executes hf (lockedCheck_none.mpr htv)

/-- `SETINIT` in an Unconfigured block (R92). -/
theorem exec_setinit_executes (hf : s.fault = 0#8) (htv : s.tv = false) (v : Word) :
    exec (.setinit v) s = .next (respond .ok 0 (setInit v s)) :=
  answer_executes hf (lockedCheck_none.mpr htv)

/-- `GEN` in an Unconfigured block with a legal width (R93). -/
theorem exec_gen_executes (hf : s.fault = 0#8) (htv : s.tv = false)
    (hw : LegalWidth s.width.toNat) : exec .gen s = .next (respond .ok 0 (generate s)) :=
  answer_executes hf (generateCheck_none.mpr ⟨htv, legalWidth_iff.mpr hw⟩)

/-- `CONFIG p, w, v` of a legal width in an Unconfigured block loads the triple and its table
(R59). -/
theorem execAll_configCommands {p w v : Word} (hf : s.fault = 0#8) (htv : s.tv = false)
    (hw : LegalWidth w.toNat) : execAll (configCommands p w v) s = .next { s with
      poly := p, width := w, init := v, table := generatedTable p w, tv := true
      responses := s.responses ++ List.replicate 4 (0#8 ++ 0#32) } := by
  -- `by exact` waits for the state at hand, whose `FAULT` and `TV` are still those of `s`
  rw [configCommands, execAll_cons (exec_setpoly_executes hf htv p),
    execAll_cons (exec_setwidth_executes (by exact hf) (by exact htv) w),
    execAll_cons (exec_setinit_executes (by exact hf) (by exact htv) v),
    execAll_cons (exec_gen_executes (by exact hf) (by exact htv) hw)]
  simp [execAll, respond, respondCode, generate, setInit, setWidth, setPoly, statusCode]

end

/-- Settles O54: both load the triple, the table generated from it, and `TV`. -/
theorem presetIsConfig : Obligations.PresetIsConfig := fun n _ hf htv =>
  ⟨_, _, exec_preset_executes hf htv, execAll_configCommands hf htv (presetRom_width n), rfl⟩

end Sys2Proof.Machine

/-! ## Streams at the port

While a stream runs, the register holds the mask of the accumulator of the unmasked fold (R74). -/

namespace Sys2Proof.Machine

/-- The byte that selects the table entry is in the register's low `w` bits. -/
theorem stepIndex_mask {w : Nat} (hw : 8 ≤ w) (a : Nat) (b : Byte) :
    BitVec.ofNat 8 (((mask w a >>> (w - 8)) ^^^ b.toNat) &&& 0xFF) =
      BitVec.ofNat 8 (((a >>> (w - 8)) ^^^ b.toNat) &&& 0xFF) := by
  ext k hk
  have hinside : w - 8 + k < w := by omega
  simp only [← BitVec.getLsbD_eq_getElem, BitVec.getLsbD_ofNat, Nat.testBit_and,
    Nat.testBit_xor, Nat.testBit_shiftRight, testBit_mask, hinside, decide_true, Bool.true_and]

/-- The masked step of a masked accumulator is the mask of its unmasked step (R73, R78). -/
theorem crcStep_mask {w : Nat} (hw : 8 ≤ w) (T : Byte → Nat) (a : Nat) (b : Byte) :
    crcStep T w (mask w a) b = mask w (rawStep T w a b) := by
  rw [crcStep, rawStep, rawStep, stepIndex_mask hw, mask_xor, mask_xor, ← mask_shiftLeft]

/-- A masked value of a legal width fits 32 bits. -/
theorem mask_lt_word {w : Nat} (hw : LegalWidth w) (a : Nat) : mask w a < 2 ^ 32 := by
  have hle : w ≤ 32 := by rcases hw with rfl | rfl | rfl <;> omega
  exact lt_of_lt_of_le (mask_lt w a) (Nat.pow_le_pow_right (by omega) hle)

/-- The register holds a masked value of a legal width as it is. -/
theorem toNat_ofNat_mask {w : Nat} (hw : LegalWidth w) (a : Nat) :
    (BitVec.ofNat 32 (mask w a)).toNat = mask w a := by
  rw [BitVec.toNat_ofNat, Nat.mod_eq_of_lt (mask_lt_word hw a)]

/-- A Ready block with table `T` and width `w`, whose register is seeded and holds the mask of the
accumulator `a`. -/
structure Streaming (T : Byte → Nat) (w a : Nat) (s : State) : Prop where
  healthy : s.fault = 0#8
  valid : s.tv = true
  seeded : s.rv = true
  table : tableNat s.table = T
  width : s.w = w
  register : s.crc = BitVec.ofNat 32 (mask w a)

/-- Seeding a Ready block begins a stream. -/
theorem streaming_seedCrc {s : State} (hf : s.fault = 0#8) (htv : s.tv = true) (v d : Word) :
    Streaming (tableNat s.table) s.w v.toNat (respond .ok d (seedCrc v s)) :=
  ⟨hf, htv, rfl, rfl, rfl, rfl⟩

section

variable {T : Byte → Nat} {w a : Nat} {s : State}

/-- `BYTE` takes the accumulator one unmasked step on, and answers `OK` (R102). -/
theorem Streaming.exec_byte (h : Streaming T w a s) (hw : LegalWidth w) (b : Byte) :
    ∃ t, exec (.byte b) s = .next t ∧ Streaming T w (rawStep T w a b) t ∧
      t.responses = s.responses ++ [0#8 ++ 0#32] := by
  have hle : 8 ≤ w := by rcases hw with rfl | rfl | rfl <;> omega
  refine ⟨respond .ok 0 (stepCrc b s),
    answer_executes h.healthy (seededCheck_none.mpr ⟨h.valid, h.seeded⟩),
    ⟨h.healthy, h.valid, h.seeded, h.table, h.width, ?_⟩, rfl⟩
  rw [respond_crc, stepCrc_crc, h.table, h.width, h.register, toNat_ofNat_mask hw,
    crcStep_mask hle]

/-- The bytes of a buffer take the accumulator through the unmasked fold, one `OK` each (R59). -/
theorem Streaming.execAll_bytes (h : Streaming T w a s) (hw : LegalWidth w) (data : List Byte) :
    ∃ t, execAll (bytesCommands data) s = .next t ∧ Streaming T w (rawFold T w a data) t ∧
      t.responses = s.responses ++ List.replicate data.length (0#8 ++ 0#32) := by
  induction data generalizing s a with
  | nil => exact ⟨s, rfl, h, (List.append_nil _).symm⟩
  | cons b rest ih =>
    obtain ⟨u, hu, hstream, hfirst⟩ := h.exec_byte hw b
    obtain ⟨t, ht, hend, hrest⟩ := ih hstream
    refine ⟨t, (execAll_cons hu).trans ht, hend, ?_⟩
    rw [hrest, hfirst, List.append_assoc]
    rfl

/-- `RDCRC` answers the masked accumulator (R103). -/
theorem Streaming.exec_rdcrc (h : Streaming T w a s) :
    exec .rdcrc s = .next (respond .ok (BitVec.ofNat 32 (mask w a)) s) := by
  rw [← h.register]
  exact answer_executes h.healthy (seededCheck_none.mpr ⟨h.valid, h.seeded⟩)

end

/-- The words of a sequence of commands, fed to a block that is not held in reset, execute it. -/
theorem feed_commandEvents {is : List Instr} {s : State} (hready : s.inReset = false) :
    feed (commandEvents is) s = execAll is s := by
  induction is generalizing s with
  | nil => rfl
  | cons i rest ih =>
    obtain ⟨t, ht⟩ := exec_next i s
    have hrun : runWord (encode i) s = .next t := (runWord_ok (decode_encode i) s).trans ht
    have hevent : portEvent (.command (encode i)) s = .next t :=
      (portEvent_ready hready _).trans hrun
    rw [execAll_cons ht, ← ih ((runWord_inReset hrun).trans hready)]
    simp only [commandEvents, List.map_cons, feed, hevent]

/-- A sequence of commands waiting at the port is run by as many steps. -/
theorem run_commandEvents {is : List Instr} {rest : List PortEvent} {s t : State}
    (hready : s.inReset = false) (hin : s.inputs = commandEvents is ++ rest)
    (h : execAll is (setInputs [] s) = .next t) :
    core.run is.length s = .next (setInputs rest t) := by
  obtain ⟨u, hfeed, hrun⟩ := runIsFeed s (commandEvents is) rest hin
  have hfeed' : feed (commandEvents is) (setInputs [] s) = .next u := hfeed
  rw [feed_commandEvents (s := setInputs [] s) hready, h] at hfeed'
  cases hfeed'
  rwa [commandEvents, List.length_map] at hrun

/-- A seeding command, the bytes of `data` and `RDCRC`, waiting at the port of a Ready block under
the invariant, answer `IncUpdate` from the seed (R76, R104). -/
theorem run_stream {s : State} {first : Instr} {v : Word} {data : List Byte}
    {rest : List PortEvent} (hs : s.Inv) (hready : s.inReset = false) (hf : s.fault = 0#8)
    (htv : s.tv = true)
    (hin : s.inputs = commandEvents (first :: bytesCommands data ++ [.rdcrc]) ++ rest)
    (hfirst : exec first (setInputs [] s) = .next (respond .ok 0 (seedCrc v (setInputs [] s)))) :
    ∃ t : State, core.run (data.length + 2) s = .next t ∧ t.inputs = rest ∧ t.fault = 0#8 ∧
      t.responses = s.responses ++ List.replicate (data.length + 1) (0#8 ++ 0#32) ++
        [0#8 ++ BitVec.ofNat 32 (incUpdate s.config data v.toNat)] ∧
      incUpdate s.config data v.toNat < 2 ^ 32 := by
  have hw : LegalWidth s.w := hs.widthLegal htv
  have htable : tableNat s.table = genTable s.poly.toNat s.w := funext (hs.tableGenerated htv)
  have hbegin := streaming_seedCrc (s := setInputs [] s) hf htv v 0
  obtain ⟨u, hbytes, hstream, hresponses⟩ := hbegin.execAll_bytes hw data
  have hall : execAll (first :: bytesCommands data ++ [.rdcrc]) (setInputs [] s) =
      .next (respond .ok (BitVec.ofNat 32 (incUpdate s.config data v.toNat)) u) := by
    rw [execAll_append ((execAll_cons hfirst).trans hbytes), execAll_cons hstream.exec_rdcrc,
      setInputs_table, htable]
    rfl
  have hlength : (first :: bytesCommands data ++ [Instr.rdcrc]).length = data.length + 2 := by
    simp [bytesCommands]
  have hrun := run_commandEvents hready hin hall
  rw [hlength] at hrun
  refine ⟨_, hrun, rfl, hstream.healthy, ?_, ?_⟩
  · rw [setInputs_responses, respond_responses, hresponses, List.replicate_succ]
    simp [statusCode]
  · exact mask_lt_word hw _

/-- Settles O55: `LDINIT` seeds with `INIT`, and one-shot is incremental from there. -/
theorem oneShotRun : Obligations.OneShotRun := fun _ _ _ hs hready hf htv hin =>
  run_stream hs hready hf htv hin (answer_executes hf (tableCheck_none.mpr htv))

/-- Settles O56: `SEED r` seeds with `r`. -/
theorem incrementalRun : Obligations.IncrementalRun := fun _ _ _ _ hs hready hf htv hin =>
  run_stream hs hready hf htv hin (answer_executes hf (tableCheck_none.mpr htv))

end Sys2Proof.Machine

/-! ## Masking in the datapath

All that holds of the widths 8, 16, 32 holds of every width of at least 8. The unmasked division
(R71) and the unmasked fold (R74) are tied to their masked forms; what a masked form does not see,
the datapath ignores. -/

namespace Sys2Proof.Machine

theorem LegalWidth.eight_le {w : Nat} (h : LegalWidth w) : 8 ≤ w := by
  rcases h with rfl | rfl | rfl <;> omega

theorem bitSerial_succ (p w n r : Nat) :
    bitSerial p w (n + 1) r = bitSerial p w n (bitSerialStep p w r) := rfl

/-- The conditional exclusive-or of R80 (e), as an operand that may be 0. -/
theorem bitSerialStep_eq (p w r : Nat) : bitSerialStep p w r =
    mask w (r <<< 1) ^^^ if r.testBit (w - 1) then mask w p else 0 := by
  cases h : r.testBit (w - 1) <;> simp [bitSerialStep, h]

/-- The polynomial is masked before it is used. -/
theorem bitSerial_mask_poly (p w n r : Nat) :
    bitSerial (mask w p) w n r = bitSerial p w n r := by
  induction n generalizing r with
  | zero => rfl
  | succ n ih =>
    rw [bitSerial_succ, bitSerial_succ, ih, bitSerialStep_eq, bitSerialStep_eq, mask_mask]

section

variable {w : Nat}

/-- An unmasked iteration of R71, masked late, is a bit-serial step of the masked accumulator. -/
theorem mask_divStep (hw : 0 < w) (p a : Nat) :
    mask w (divStep p w a) = bitSerialStep p w (mask w a) := by
  rw [divStep, bitSerialStep, testBit_top_mask hw, ← mask_shiftLeft]
  split
  · exact mask_xor w _ _
  · rfl

theorem mask_divSteps (hw : 0 < w) (p n a : Nat) :
    mask w (divSteps p w n a) = bitSerial p w n (mask w a) := by
  induction n generalizing a with
  | zero => rfl
  | succ n ih => rw [divSteps_succ, ih, mask_divStep hw, bitSerial_succ]

/-- Masking after every iteration is bit-serial division. -/
theorem iterate_mask_divStep (hw : 0 < w) (p n a : Nat) :
    (fun x => mask w (divStep p w x))^[n] (mask w a) = bitSerial p w n (mask w a) := by
  induction n generalizing a with
  | zero => rfl
  | succ n ih =>
    rw [Function.iterate_succ_apply, ih, mask_divStep hw, mask_mask, bitSerial_succ]

/-- The table entry is eight bit-serial steps from the byte at the top of the register (R80). -/
theorem tableEntry_eq_bitSerial (hw : 8 ≤ w) (p : Nat) (i : Byte) :
    tableEntry p w i = bitSerial p w 8 (i.toNat <<< (w - 8)) := by
  have hlt : i.toNat <<< (w - 8) < 2 ^ w := by
    simpa only [Nat.add_sub_cancel' hw] using Nat.shiftLeft_lt (m := w - 8) i.isLt
  rw [tableEntry, mask_divSteps (by omega), mask_of_lt hlt]

/-- Polynomial bits above the width are ignored (R79). -/
theorem tableEntry_mask_poly (hw : 8 ≤ w) (p : Nat) (i : Byte) :
    tableEntry (mask w p) w i = tableEntry p w i := by
  rw [tableEntry_eq_bitSerial hw, tableEntry_eq_bitSerial hw, bitSerial_mask_poly]

theorem genTable_mask_poly (hw : 8 ≤ w) (p : Nat) : genTable (mask w p) w = genTable p w :=
  funext (tableEntry_mask_poly hw p)

theorem maskedFold_mask (T : Byte → Nat) (r : Nat) (data : List Byte) :
    maskedFold T w (mask w r) data = maskedFold T w r data := by
  cases data <;> simp only [maskedFold, mask_mask]

/-- The unmasked fold, masked late, is the masked fold (R78). -/
theorem mask_rawFold (hw : 8 ≤ w) (T : Byte → Nat) (a : Nat) (data : List Byte) :
    mask w (rawFold T w a data) = maskedFold T w a data := by
  induction data generalizing a with
  | nil => rfl
  | cons b rest ih => rw [rawFold_cons, ih, maskedFold, crcStep_mask hw, maskedFold_mask]

/-- Accumulator bits above the width are ignored (R79). -/
theorem mask_rawFold_mask (hw : 8 ≤ w) (T : Byte → Nat) (a : Nat) (data : List Byte) :
    mask w (rawFold T w (mask w a) data) = mask w (rawFold T w a data) := by
  rw [mask_rawFold hw, mask_rawFold hw, maskedFold_mask]

end

/-- Settles O48: both orders of masking give the masked forms, bit-serial division and the masked
fold. -/
theorem maskEarlyIsMaskLate : Obligations.MaskEarlyIsMaskLate := by
  intro T w hlegal _
  have hw : 8 ≤ w := hlegal.eight_le
  have hpos : 0 < w := by omega
  exact ⟨fun a b => (crcStep_mask hw T a b).symm, mask_rawFold hw T,
    fun p n a => (mask_divSteps hpos p n a).trans (iterate_mask_divStep hpos p n a).symm⟩

/-- Settles O53: one-shot is incremental from `INIT` by definition, and both end in a mask. -/
theorem updateEdgesAndRange : Obligations.UpdateEdgesAndRange := fun _ _ _ =>
  ⟨rfl, rfl, rfl, mask_lt _ _, mask_lt _ _⟩

section

variable {cfg : CrcConfig}

theorem incUpdate_mask_prior (hw : 8 ≤ cfg.width) (data : List Byte) (prior : Nat) :
    incUpdate cfg data (mask cfg.width prior) = incUpdate cfg data prior :=
  mask_rawFold_mask hw _ _ _

/-- The split law for two chunks (R77). -/
theorem incUpdate_incUpdate (hw : 8 ≤ cfg.width) (x y : List Byte) (prior : Nat) :
    incUpdate cfg y (incUpdate cfg x prior) = incUpdate cfg (x ++ y) prior :=
  (incUpdate_mask_prior hw y _).trans (congrArg (mask cfg.width) (rawFold_append _ _ _ x y).symm)

/-- The split law for any number of chunks (R77). -/
theorem foldl_incUpdate (hw : 8 ≤ cfg.width) (chunks : List (List Byte)) (x : List Byte)
    (prior : Nat) : chunks.foldl (fun r c => incUpdate cfg c r) (incUpdate cfg x prior) =
      incUpdate cfg (x ++ chunks.flatten) prior := by
  induction chunks generalizing x with
  | nil => rw [List.flatten_nil, List.append_nil, List.foldl_nil]
  | cons c rest ih =>
    rw [List.foldl_cons, incUpdate_incUpdate hw, ih, List.flatten_cons, List.append_assoc]

end

/-- Settles O47: masking the prior register between two chunks changes nothing. -/
theorem splitLaw : Obligations.SplitLaw := fun _ x y prior hlegal =>
  ⟨incUpdate_incUpdate hlegal.eight_le x y prior, incUpdate_incUpdate hlegal.eight_le x y _,
    fun chunks => foldl_incUpdate hlegal.eight_le chunks x prior⟩

/-- The skeleton asks the effect about the state at hand only. -/
theorem answer_congr_effect {effect effect' : State → State} {s : State}
    (check : State → Option FaultKind) (data : State → Word) (h : effect s = effect' s) :
    answer check effect data s = answer check effect' data s := by
  rw [answer, answer, h]

/-- Two operands with the same mask seed alike. -/
theorem seedCrc_eq_of_mask {s : State} {v m : Word}
    (h : m.toNat = mask s.width.toNat v.toNat) : seedCrc v s = seedCrc m s := by
  rw [seedCrc, seedCrc, State.w, h, mask_mask]

theorem generatedTable_eq_of_mask {p m w : Word} (hw : 8 ≤ w.toNat)
    (h : m.toNat = mask w.toNat p.toNat) : generatedTable p w = generatedTable m w := by
  simp only [generatedTable, h, tableEntry_mask_poly hw]

/-- Settles O49: the datapath masks each of its inputs, early or late, and the machine calls it. -/
theorem highBitsIgnored : Obligations.HighBitsIgnored := by
  refine ⟨fun s imm m hlegal => ⟨?_, ?_, ?_⟩, fun p w v prior data hlegal => ⟨?_, ?_, ?_⟩⟩
  · exact fun h => answer_congr_effect _ _ (seedCrc_eq_of_mask h)
  · exact fun h => answer_congr_effect _ _ (seedCrc_eq_of_mask h)
  · exact fun h => generatedTable_eq_of_mask hlegal.eight_le h
  · exact fun i => (tableEntry_mask_poly hlegal.eight_le p i).symm
  · rw [update, update, genTable_mask_poly hlegal.eight_le, mask_rawFold_mask hlegal.eight_le]
  · exact (incUpdate_mask_prior (cfg := ⟨p, w, v⟩) hlegal.eight_le data prior).symm

end Sys2Proof.Machine

/-! ## The table and the step as bit-serial division

Bit-serial division is linear in the register, and its first steps only shift while the register's
top bits are 0. From these two facts follow the laws of the table (R80, R82) and the step's division
form. -/

namespace Sys2Proof.Machine

section

variable {w : Nat}

/-- The polynomial goes in twice, so not at all, when both top bits are 1. -/
theorem ite_xor (x y : Bool) (p : Nat) :
    (if (x ^^ y) = true then p else 0) =
      (if x = true then p else 0) ^^^ if y = true then p else 0 := by
  cases x <;> cases y <;> simp

theorem bitSerialStep_xor (p w a b : Nat) :
    bitSerialStep p w (a ^^^ b) = bitSerialStep p w a ^^^ bitSerialStep p w b := by
  rw [bitSerialStep_eq, bitSerialStep_eq, bitSerialStep_eq, Nat.shiftLeft_xor_distrib, mask_xor,
    Nat.testBit_xor, ite_xor]
  ac_rfl

/-- Division is linear in the register. -/
theorem bitSerial_xor (p w n a b : Nat) :
    bitSerial p w n (a ^^^ b) = bitSerial p w n a ^^^ bitSerial p w n b := by
  induction n generalizing a b with
  | zero => rfl
  | succ n ih => rw [bitSerial_succ, bitSerialStep_xor, ih, bitSerial_succ, bitSerial_succ]

/-- A step whose top bit is 0 shifts. -/
theorem bitSerialStep_of_lt (hw : 0 < w) (p : Nat) {r : Nat} (hr : r < 2 ^ (w - 1)) :
    bitSerialStep p w r = r <<< 1 := by
  have hlt : r <<< 1 < 2 ^ w := by
    simpa only [Nat.sub_add_cancel hw] using Nat.shiftLeft_lt (m := 1) hr
  simp [bitSerialStep, Nat.testBit_lt_two_pow hr, mask_of_lt hlt]

/-- While the top bits are 0 the steps only shift. -/
theorem bitSerial_of_lt (p : Nat) {n r : Nat} (hn : n ≤ w) (hr : r < 2 ^ (w - n)) :
    bitSerial p w n r = r <<< n := by
  induction n generalizing r with
  | zero => rfl
  | succ n ih =>
    have htop : r < 2 ^ (w - 1) := hr.trans_le (Nat.pow_le_pow_right (by omega) (by omega))
    have hnext : r <<< 1 < 2 ^ (w - n) := by
      simpa only [show w - (n + 1) + 1 = w - n by omega] using Nat.shiftLeft_lt (m := 1) hr
    rw [bitSerial_succ, bitSerialStep_of_lt (by omega) p htop, ih (by omega) hnext,
      ← Nat.shiftLeft_add, Nat.add_comm]

/-- The step that shifts the one at the top out leaves the polynomial. -/
theorem bitSerialStep_top (hw : 0 < w) (p : Nat) :
    bitSerialStep p w (2 ^ (w - 1)) = mask w p := by
  have hout : mask w (2 ^ (w - 1) <<< 1) = 0 := by
    rw [Nat.shiftLeft_eq, ← Nat.pow_add, Nat.sub_add_cancel hw, mask, Nat.mod_self]
  simp [bitSerialStep, Nat.testBit_two_pow_self, hout]

/-- The last of `n + 1` steps, split off. -/
theorem bitSerial_succ' (p w n r : Nat) :
    bitSerial p w (n + 1) r = bitSerialStep p w (bitSerial p w n r) := by
  induction n generalizing r with
  | zero => rfl
  | succ n ih => rw [bitSerial_succ, ih, bitSerial_succ]

theorem tableEntry_xor (hw : 8 ≤ w) (p : Nat) (i j : Byte) :
    tableEntry p w (i ^^^ j) = tableEntry p w i ^^^ tableEntry p w j := by
  simp only [tableEntry_eq_bitSerial hw, BitVec.toNat_xor, Nat.shiftLeft_xor_distrib,
    bitSerial_xor]

theorem tableEntry_zero (hw : 8 ≤ w) (p : Nat) : tableEntry p w 0#8 = 0 := by
  simpa using tableEntry_xor hw p 0#8 0#8

/-- Seven steps bring the one of the byte to the top of the register, the eighth divides. -/
theorem tableEntry_one (hw : 8 ≤ w) (p : Nat) : tableEntry p w 1#8 = mask w p := by
  have hlt : 1 <<< (w - 8) < 2 ^ (w - 7) := by
    rw [Nat.one_shiftLeft]
    exact Nat.pow_lt_pow_right (by omega) (by omega)
  calc tableEntry p w 1#8
      = bitSerialStep p w (bitSerial p w 7 (1 <<< (w - 8))) := by
        rw [tableEntry_eq_bitSerial hw, bitSerial_succ']; rfl
    _ = bitSerialStep p w (2 ^ (w - 1)) := by
        rw [bitSerial_of_lt p (by omega) hlt, ← Nat.shiftLeft_add, Nat.one_shiftLeft,
          show w - 8 + 7 = w - 1 by omega]
    _ = mask w p := bitSerialStep_top (by omega) p

/-- The zero polynomial only shifts. -/
theorem divSteps_zero_poly (w n a : Nat) : divSteps 0 w n a = a <<< n := by
  induction n generalizing a with
  | zero => rfl
  | succ n ih =>
    rw [divSteps_succ, ih, divStep, Nat.xor_zero, ite_self, ← Nat.shiftLeft_add, Nat.add_comm]

/-- Eight shifts push the byte out of the register. -/
theorem tableEntry_zero_poly (hw : 8 ≤ w) (i : Byte) : tableEntry 0 w i = 0 := by
  rw [tableEntry, divSteps_zero_poly, ← Nat.shiftLeft_add, Nat.sub_add_cancel hw,
    Nat.shiftLeft_eq, mask, Nat.mul_mod_left]

/-- Entry 1 tells the tables of different masked polynomials apart. -/
theorem genTable_eq_iff (hw : 8 ≤ w) (p q : Nat) :
    genTable p w = genTable q w ↔ mask w p = mask w q := by
  constructor
  · intro h
    have hone : tableEntry p w 1#8 = tableEntry q w 1#8 := congrFun h 1#8
    rwa [tableEntry_one hw, tableEntry_one hw] at hone
  · intro h
    rw [← genTable_mask_poly hw p, h, genTable_mask_poly hw]

end

/-- Settles O50: the laws of the table's entries; (b) and (c) are those of the division. -/
theorem tableLaws : Obligations.TableLaws := fun p w hlegal =>
  ⟨tableEntry_zero hlegal.eight_le p, tableEntry_one hlegal.eight_le p,
    tableEntry_xor hlegal.eight_le p, tableEntry_lt p w⟩

/-- The masked polynomials of the ROM are pairwise different (R33). -/
theorem mask_presetRom_ne : ∀ n m : BitVec 2, n ≠ m →
    mask (presetRom n).2.1.toNat (presetRom n).1.toNat ≠
      mask (presetRom m).2.1.toNat (presetRom m).1.toNat := by
  decide

/-- Settles O52: entry 1 of a table is its masked polynomial, and an entry depends on the polynomial
through its mask only. -/
theorem tablesDistinguishPolynomials : Obligations.TablesDistinguishPolynomials := by
  refine ⟨fun p q w hlegal => genTable_eq_iff hlegal.eight_le p q, fun n m hne h => ?_,
    fun w i hlegal => tableEntry_zero_poly hlegal.eight_le i⟩
  have hone := congrFun h 1#8
  rw [genTable, genTable, tableEntry_one (LegalWidth.eight_le (presetRom_width n)),
    tableEntry_one (LegalWidth.eight_le (presetRom_width m))] at hone
  exact mask_presetRom_ne n m hne hone

section

variable {w : Nat}

/-- The byte that selects the table entry, without the mask of R73. -/
theorem stepIndex_eq (w r : Nat) (b : Byte) :
    BitVec.ofNat 8 (((r >>> (w - 8)) ^^^ b.toNat) &&& 0xFF) =
      BitVec.ofNat 8 (r / 2 ^ (w - 8)) ^^^ b := by
  rw [BitVec.ofNat_and, BitVec.ofNat_xor, BitVec.ofNat_toNat, BitVec.setWidth_eq,
    Nat.shiftRight_eq_div_pow]
  exact BitVec.and_allOnes

/-- Shifting by a byte drops the top byte of the register. -/
theorem mask_shiftLeft_eight (hw : 8 ≤ w) (r : Nat) :
    mask w (r <<< 8) = r % 2 ^ (w - 8) * 256 := by
  have hpow : 2 ^ w = 2 ^ (w - 8) * 2 ^ 8 := by rw [← Nat.pow_add, Nat.sub_add_cancel hw]
  rw [mask, Nat.shiftLeft_eq, hpow, Nat.mul_mod_mul_right]

/-- The step by bit slices, for a table within the width (R73). -/
theorem crcStep_eq_slices (hw : 8 ≤ w) {T : Byte → Nat} (hT : ∀ i, T i < 2 ^ w) (r : Nat)
    (b : Byte) : crcStep T w r b =
      (r % 2 ^ (w - 8) * 256) ^^^ T (BitVec.ofNat 8 (r / 2 ^ (w - 8)) ^^^ b) := by
  rw [crcStep, rawStep, stepIndex_eq, mask_xor, mask_shiftLeft_eight hw, mask_of_lt (hT _)]

/-- A register is its low bits and its top byte. -/
theorem register_eq_xor (k r : Nat) : r = (r % 2 ^ k) ^^^ ((r / 2 ^ k) <<< k) := by
  refine Nat.eq_of_testBit_eq fun j => ?_
  rw [Nat.testBit_xor, Nat.testBit_mod_two_pow, Nat.testBit_shiftLeft, Nat.testBit_div_two_pow]
  by_cases hj : j < k
  · simp [hj, Nat.not_le.mpr hj]
  · simp [hj, Nat.le_of_not_lt hj]

/-- Eight steps divide the top byte by its table entry, and shift the low bits (R80). -/
theorem bitSerial_eq_slices (hw : 8 ≤ w) (p : Nat) {r : Nat} (hr : r < 2 ^ w) :
    bitSerial p w 8 r =
      (r % 2 ^ (w - 8) * 256) ^^^ tableEntry p w (BitVec.ofNat 8 (r / 2 ^ (w - 8))) := by
  have hlow : r % 2 ^ (w - 8) < 2 ^ (w - 8) := Nat.mod_lt _ (Nat.two_pow_pos _)
  have htop : r / 2 ^ (w - 8) < 2 ^ 8 := by
    apply Nat.div_lt_of_lt_mul
    rwa [← Nat.pow_add, Nat.sub_add_cancel hw]
  rw [tableEntry_eq_bitSerial hw, BitVec.toNat_ofNat, Nat.mod_eq_of_lt htop]
  conv_lhs => rw [register_eq_xor (w - 8) r]
  rw [bitSerial_xor, bitSerial_of_lt p hw hlow, Nat.shiftLeft_eq]

/-- The table-driven step divides the register with the byte added at its top (R80). -/
theorem crcStep_eq_bitSerial (hw : 8 ≤ w) (p : Nat) {r : Nat} (hr : r < 2 ^ w) (b : Byte) :
    crcStep (genTable p w) w r b = bitSerial p w 8 (r ^^^ (b.toNat <<< (w - 8))) := by
  rw [crcStep_eq_slices hw (T := genTable p w) (tableEntry_lt p w), bitSerial_xor,
    bitSerial_eq_slices hw p hr, ← tableEntry_eq_bitSerial hw, genTable, tableEntry_xor hw,
    Nat.xor_assoc]

end

/-- Settles O46: the slices of the register; at width 8 the low slice is empty. -/
theorem stepSliceForm : Obligations.StepSliceForm := by
  refine ⟨fun T w a b => ⟨rfl, rfl⟩, fun T w r b hlegal hT _ => ⟨crcStep_lt T w r b, ?_, ?_⟩⟩
  · rintro rfl
    simpa [Nat.mod_one] using crcStep_eq_slices (Nat.le_refl 8) hT r b
  · exact crcStep_eq_slices hlegal.eight_le hT r b

/-- Settles O51: division is linear, and the table holds the divisions of the top byte. -/
theorem stepIsBitSerialDivision : Obligations.StepIsBitSerialDivision := fun p _ hlegal =>
  ⟨tableEntry_eq_bitSerial hlegal.eight_le p,
    fun _ b hr => crcStep_eq_bitSerial hlegal.eight_le p hr b⟩

end Sys2Proof.Machine

/-! ## The configuration commands

`SETPOLY`, `SETWIDTH` and `SETINIT` are one skeleton with the lock as its check and one register as
its effect; `GEN` checks the width behind the lock. -/

namespace Sys2Proof.Machine

/-- A legal width fits the table's storage (R30, R121). -/
theorem LegalWidth.le_entry {w : Nat} (h : LegalWidth w) : w ≤ 32 := by
  rcases h with rfl | rfl | rfl <;> decide

/-- A width that is not legal is what `GEN` checks for (R121). -/
theorem legalWidth_eq_false {s : State} (h : ¬ LegalWidth s.width.toNat) : legalWidth s = false :=
  Bool.eq_false_iff.mpr (mt legalWidth_iff.mp h)

/-- All a command can do whose one check is the lock: the echo, `E_CONFIG_LOCKED`, or its effect
(R125, R127). -/
theorem answer_lockedCheck (effect : State → State) (s : State) :
    (s.fault ≠ 0#8 → answer lockedCheck effect noData s =
      .next { s with responses := s.responses ++ [s.fault ++ 0#32] }) ∧
    (s.fault = 0#8 → s.tv = true → answer lockedCheck effect noData s =
      .next { s with fault := 4#8, responses := s.responses ++ [4#8 ++ 0#32] }) ∧
    (s.fault = 0#8 → s.tv = false → answer lockedCheck effect noData s =
      .next (respond .ok 0 (effect s))) :=
  ⟨answer_faulted,
    fun hf htv => answer_raises hf (lockedCheck_some.mpr ⟨htv, rfl⟩),
    fun hf htv => answer_executes hf (lockedCheck_none.mpr htv)⟩

/-- Settles O14: `GEN` checks the lock, then the width, and its effect writes the table generated
from `POLY` and `WIDTH`, whose entries are those of R71 because a legal width fits the storage. -/
theorem genCommand : Obligations.GenCommand := by
  intro s
  refine ⟨runWord_admitted (m := .gen) (op := 0#32) rfl s,
    fun op hop => runWord_malformed_raises (m := .gen) (admits_z_eq_false hop),
    fun hf op => runWord_row_echoes (m := .gen) hf (answer_faulted hf), ?_, ?_, ?_⟩
  · exact fun hf htv => answer_raises hf (generateCheck_some.mpr (.inl ⟨htv, rfl⟩))
  · exact fun hf htv hwidth => answer_raises hf
      (generateCheck_some.mpr (.inr ⟨htv, legalWidth_eq_false hwidth, rfl⟩))
  · exact fun hf htv hwidth => ⟨generatedTable s.poly s.width,
      generatedTable_entry hwidth.le_entry, exec_gen_executes hf htv hwidth⟩

/-- Settles O11: format I admits every operand, and the effect behind the lock writes `POLY`. -/
theorem setpolyCommand : Obligations.SetpolyCommand := fun imm s =>
  ⟨runWord_admitted (m := .setpoly) rfl s, answer_lockedCheck (setPoly imm) s⟩

/-- Settles O12: format I admits every operand, and the effect behind the lock writes `WIDTH`. -/
theorem setwidthCommand : Obligations.SetwidthCommand := fun imm s =>
  ⟨runWord_admitted (m := .setwidth) rfl s, answer_lockedCheck (setWidth imm) s⟩

/-- Settles O13: format I admits every operand, and the effect behind the lock writes `INIT`. -/
theorem setinitCommand : Obligations.SetinitCommand := fun imm s =>
  ⟨runWord_admitted (m := .setinit) rfl s, answer_lockedCheck (setInit imm) s⟩

end Sys2Proof.Machine

/-! ## The stream commands

`LDINIT` and `SEED` are one skeleton that checks the table and seeds the register; `BYTE` and `RDCRC`
check the register behind the table. -/

namespace Sys2Proof.Machine

/-- All a command can do that seeds the register: the echo, `E_TABLE_NOT_VALID`, or the seed masked to
the width (R100, R101, R122). -/
theorem answer_seedCrc (v : Word) (s : State) :
    (s.fault ≠ 0#8 → answer tableCheck (seedCrc v) noData s =
      .next { s with responses := s.responses ++ [s.fault ++ 0#32] }) ∧
    (s.fault = 0#8 → s.tv = false → answer tableCheck (seedCrc v) noData s =
      .next { s with fault := 2#8, responses := s.responses ++ [2#8 ++ 0#32] }) ∧
    (s.fault = 0#8 → s.tv = true → answer tableCheck (seedCrc v) noData s = .next { s with
      crc := BitVec.ofNat 32 (v.toNat % 2 ^ s.width.toNat), rv := true
      responses := s.responses ++ [0#8 ++ 0#32] }) :=
  ⟨answer_faulted,
    fun hf htv => answer_raises hf (tableCheck_some.mpr ⟨htv, rfl⟩),
    fun hf htv => answer_executes hf (tableCheck_none.mpr htv)⟩

section

variable {effect : State → State} {data : State → Word} {s : State}

/-- A command that needs the register seeded, without a table: `E_TABLE_NOT_VALID` (R122). -/
theorem answer_seededCheck_tableNotValid (hf : s.fault = 0#8) (htv : s.tv = false) :
    answer seededCheck effect data s =
      .next { s with fault := 2#8, responses := s.responses ++ [2#8 ++ 0#32] } :=
  answer_raises hf (seededCheck_some.mpr (.inl ⟨htv, rfl⟩))

/-- A command that needs the register seeded, with a table and no seed: `E_NOT_SEEDED` (R126). -/
theorem answer_seededCheck_notSeeded (hf : s.fault = 0#8) (htv : s.tv = true)
    (hrv : s.rv = false) : answer seededCheck effect data s =
      .next { s with fault := 5#8, responses := s.responses ++ [5#8 ++ 0#32] } :=
  answer_raises hf (seededCheck_some.mpr (.inr ⟨htv, hrv, rfl⟩))

/-- A command that needs the register seeded, with a table and a seed, executes (R127). -/
theorem answer_seededCheck_executes (hf : s.fault = 0#8) (htv : s.tv = true)
    (hrv : s.rv = true) : answer seededCheck effect data s =
      .next (respond .ok (data s) (effect s)) :=
  answer_executes hf (seededCheck_none.mpr ⟨htv, hrv⟩)

end

/-- The word of a byte executes `BYTE` of it (R102). -/
theorem runWord_byte (b : Byte) (s : State) :
    runWord (0x12#8 ++ (0#24 ++ b)) s = exec (.byte b) s := by
  obtain ⟨-, -, hop⟩ := Sys2Proof.Laws.Fields.byte b
  rw [zero_append_byte]
  refine (runWord_admitted (m := .byte) (op := b.setWidth 32) hop s).trans ?_
  simp only [buildInstr, extract_setWidth_byte]

/-- The step of a register `c`, its index read as the slice `c[w-1 : w-8]` (R102). -/
theorem crcStep_tableNat (t : Table) (w : Nat) (c : Word) (b : Byte) :
    crcStep (tableNat t) w c.toNat b = ((c.toNat <<< 8) ^^^
      (readEntry t (c.extractLsb' (w - 8) 8 ^^^ b)).toNat) % 2 ^ w := by
  have hslice : c.extractLsb' (w - 8) 8 = BitVec.ofNat 8 (c.toNat / 2 ^ (w - 8)) := by
    rw [← Nat.shiftRight_eq_div_pow]
    rfl
  rw [crcStep, rawStep, stepIndex_eq, hslice]
  rfl

/-- The register after `BYTE` holds the step as it is, for a legal width (R102). -/
theorem toNat_stepCrc_crc {s : State} (hw : LegalWidth s.width.toNat) (b : Byte) :
    (stepCrc b s).crc.toNat = ((s.crc.toNat <<< 8) ^^^
      (readEntry s.table (s.crc.extractLsb' (s.width.toNat - 8) 8 ^^^ b)).toNat) %
        2 ^ s.width.toNat := by
  rw [stepCrc_crc, ← crcStep_tableNat]
  exact toNat_ofNat_mask hw _

/-- Settles O18: `BYTE` checks the table, then the seed, and its effect writes the step of the
register, which fits 32 bits because the width is legal. -/
theorem byteCommand : Obligations.ByteCommand := by
  intro s
  refine ⟨fun b => runWord_byte b s,
    fun op hop => runWord_malformed_raises (m := .byte) (admits_b_eq_false hop),
    fun hf op => runWord_row_echoes (m := .byte) hf (answer_faulted hf), ?_, ?_, ?_⟩
  · exact fun hf htv b => answer_seededCheck_tableNotValid hf htv
  · exact fun hf htv hrv b => answer_seededCheck_notSeeded hf htv hrv
  · exact fun hf htv hrv hw b => ⟨(stepCrc b s).crc, toNat_stepCrc_crc hw b,
      answer_seededCheck_executes hf htv hrv⟩

/-- Settles O16: the seed of `LDINIT` is `INIT`. -/
theorem ldinitCommand : Obligations.LdinitCommand := by
  intro s
  obtain ⟨hechoes, hraises, hseeds⟩ := answer_seedCrc s.init s
  exact ⟨runWord_admitted (m := .ldinit) (op := 0#32) rfl s,
    fun op hop => runWord_malformed_raises (m := .ldinit) (admits_z_eq_false hop),
    fun hf op => runWord_row_echoes (m := .ldinit) hf (hechoes hf), hraises, hseeds⟩

/-- Seeding a seeded register with its own value changes nothing (R21, R101). -/
theorem seedCrc_crc_self {s : State} (hs : s.RegisterSeeded) (hrv : s.rv = true) :
    seedCrc s.crc s = s := by
  rw [seedCrc_of_seeded hrv, ofNat_mask_crc hs hrv]
  rfl

/-- Settles O17: format I admits every operand; `LDINIT` is `SEED` of `INIT`, and a seeded register
is below `2^WIDTH`, so that masking its value gives it back. -/
theorem seedCommand : Obligations.SeedCommand := by
  refine ⟨fun s => (exec_seed s s.init).trans (exec_ldinit s).symm, fun s hs hf hrv => ?_,
    fun imm s => ⟨runWord_admitted (m := .seed) rfl s, answer_seedCrc imm s⟩⟩
  obtain ⟨htv, -⟩ := hs.registerSeeded hrv
  have hexec : exec (.seed s.crc) s = .next (respond .ok 0 (seedCrc s.crc s)) :=
    answer_executes hf (tableCheck_none.mpr htv)
  rw [hexec, seedCrc_crc_self hs.registerSeeded hrv]
  rfl

/-- Settles O19: `RDCRC` makes the checks of `BYTE` and has no effect; its range is R21 (c). -/
theorem rdcrcCommand : Obligations.RdcrcCommand := fun s =>
  ⟨runWord_admitted (m := .rdcrc) (op := 0#32) rfl s,
    fun _ hop => runWord_malformed_raises (m := .rdcrc) (admits_z_eq_false hop),
    fun hf _ => runWord_row_echoes (m := .rdcrc) hf (answer_faulted hf),
    answer_seededCheck_tableNotValid, answer_seededCheck_notSeeded, answer_seededCheck_executes,
    fun hs hrv => (hs.registerSeeded hrv).2⟩

end Sys2Proof.Machine

/-! ## The observation commands

`RDPOLY`, `RDWIDTH` and `RDINIT` are one skeleton that makes no check, has no effect and answers one
register; `RDTBL` checks the table. -/

namespace Sys2Proof.Machine

/-- All the word of a row can do whose format has no operand and whose command only answers `data`:
the command or `E_ILLEGAL_COMMAND`, the echo, or the answer (R55, R111 to R113, R128). -/
theorem runWord_read {m : Mnemonic} {data : State → Word} {s : State} (hformat : m.format = .z)
    (hexec : ∀ op, exec (buildInstr m op) s = answer noCheck noEffect data s) :
    runWord (opcodeOf m ++ 0#32) s = exec (buildInstr m 0#32) s ∧
    (∀ op : Word, op ≠ 0#32 → s.fault = 0#8 → runWord (opcodeOf m ++ op) s =
      .next { s with fault := 3#8, responses := s.responses ++ [3#8 ++ 0#32] }) ∧
    (s.fault ≠ 0#8 → ∀ op : Word, runWord (opcodeOf m ++ op) s =
      .next { s with responses := s.responses ++ [s.fault ++ 0#32] }) ∧
    (s.fault = 0#8 → exec (buildInstr m 0#32) s =
      .next { s with responses := s.responses ++ [0#8 ++ data s] }) :=
  ⟨runWord_admitted (hformat ▸ rfl) s,
    fun _ hop => runWord_malformed_raises (hformat ▸ admits_z_eq_false hop),
    fun hf op => runWord_row_echoes hf ((hexec op).trans (answer_faulted hf)),
    fun hf => (hexec 0#32).trans (answer_executes hf noCheck_none)⟩

/-- Settles O21: the register read is `POLY`. -/
theorem rdpolyCommand : Obligations.RdpolyCommand := fun s =>
  runWord_read (m := .rdpoly) rfl fun _ => exec_rdpoly s

/-- Settles O22: the register read is `WIDTH`; that it is legal in Ready is R21 (a). -/
theorem rdwidthCommand : Obligations.RdwidthCommand := by
  intro s
  obtain ⟨hruns, hraises, hechoes, hanswers⟩ :=
    runWord_read (m := .rdwidth) rfl fun _ => exec_rdwidth s
  exact ⟨hruns, hraises, hechoes, hanswers, fun hs htv => hs.widthLegal htv⟩

/-- Settles O23: the register read is `INIT`. -/
theorem rdinitCommand : Obligations.RdinitCommand := fun s =>
  runWord_read (m := .rdinit) rfl fun _ => exec_rdinit s

/-- The word of an index executes `RDTBL` of it (R110). -/
theorem runWord_rdtbl (b : Byte) (s : State) :
    runWord (0x20#8 ++ (0#24 ++ b)) s = exec (.rdtbl b) s := by
  rw [zero_append_byte]
  exact runWord_ok (decode_encode (.rdtbl b)) s

section

variable {s : State} (hs : s.Inv) (htv : s.tv = true)

include hs htv

/-- The entries of a valid table are those of R71 (R21 (b)). -/
theorem State.Inv.readEntry_table (b : Byte) :
    (readEntry s.table b).toNat = tableEntry s.poly.toNat s.width.toNat b :=
  hs.tableGenerated htv b

/-- Entry 0 of a valid table is 0 (R110). -/
theorem State.Inv.readEntry_table_zero : readEntry s.table 0#8 = 0#32 :=
  have hw : LegalWidth s.width.toNat := hs.widthLegal htv
  BitVec.eq_of_toNat_eq ((hs.readEntry_table htv 0#8).trans (tableEntry_zero hw.eight_le _))

/-- Entry 1 of a valid table is `POLY` masked to the width (R110). -/
theorem State.Inv.readEntry_table_one :
    (readEntry s.table 1#8).toNat = s.poly.toNat % 2 ^ s.width.toNat :=
  have hw : LegalWidth s.width.toNat := hs.widthLegal htv
  (hs.readEntry_table htv 1#8).trans (tableEntry_one hw.eight_le _)

end

/-- Settles O20: `RDTBL` checks the table and has no effect; by the invariant the entries are those
of R71, whose values at 0 and 1 are 0 and the masked polynomial. -/
theorem rdtblCommand : Obligations.RdtblCommand := by
  intro s
  refine ⟨fun b => runWord_rdtbl b s,
    fun op hop => runWord_malformed_raises (m := .rdtbl) (admits_b_eq_false hop),
    fun hf op => runWord_row_echoes (m := .rdtbl) hf
      ((exec_rdtbl s _).trans (answer_faulted hf)), ?_, ?_, ?_⟩
  · exact fun hf htv b => (exec_rdtbl s b).trans
      (answer_raises hf (tableCheck_some.mpr ⟨htv, rfl⟩))
  · exact fun hf htv b => (exec_rdtbl s b).trans (answer_executes hf (tableCheck_none.mpr htv))
  · exact fun hs htv => ⟨hs.readEntry_table htv, hs.readEntry_table_zero htv,
      hs.readEntry_table_one htv⟩

end Sys2Proof.Machine

/-! ## The checks of a command and the Faulted state

`commandCheck` gives each command the checks it makes, and `exec_eq_answer` puts it into the
skeleton of R127: a check that fails raises its fault (`exec_raises`), and a command no check stops
answers `OK` (`exec_executes`). -/

namespace Sys2Proof.Machine

/-- The checks a command makes, in the order of R127 steps 4 to 6. -/
def commandCheck : Instr → State → Option FaultKind
  | .setpoly _ | .setwidth _ | .setinit _ | .preset _ => lockedCheck
  | .gen => generateCheck
  | .ldinit | .seed _ | .rdtbl _ => tableCheck
  | .byte _ | .rdcrc => seededCheck
  | .rdpoly | .rdwidth | .rdinit | .rdstat | .rst => noCheck

section

variable {i : Instr} {s : State}

/-- Every command but `RDSTAT` and `RST` is the skeleton of R127 with its checks, and its effect
touches neither `FAULT` nor the answers. -/
theorem exec_eq_answer (hstat : i ≠ .rdstat) (hrst : i ≠ .rst) :
    ∃ effect data, exec i s = answer (commandCheck i) effect data s ∧
      (effect s).fault = s.fault ∧ (effect s).responses = s.responses := by
  cases i with
  | setpoly v => exact ⟨_, _, exec_setpoly s v, rfl, rfl⟩
  | setwidth v => exact ⟨_, _, exec_setwidth s v, rfl, rfl⟩
  | setinit v => exact ⟨_, _, exec_setinit s v, rfl, rfl⟩
  | gen => exact ⟨_, _, exec_gen s, rfl, rfl⟩
  | preset n => exact ⟨_, _, exec_preset s n, rfl, rfl⟩
  | ldinit => exact ⟨_, _, exec_ldinit s, rfl, rfl⟩
  | seed v => exact ⟨_, _, exec_seed s v, rfl, rfl⟩
  | byte b => exact ⟨_, _, exec_byte s b, rfl, rfl⟩
  | rdcrc => exact ⟨_, _, exec_rdcrc s, rfl, rfl⟩
  | rdtbl b => exact ⟨_, _, exec_rdtbl s b, rfl, rfl⟩
  | rdpoly => exact ⟨_, _, exec_rdpoly s, rfl, rfl⟩
  | rdwidth => exact ⟨_, _, exec_rdwidth s, rfl, rfl⟩
  | rdinit => exact ⟨_, _, exec_rdinit s, rfl, rfl⟩
  | rdstat => exact absurd rfl hstat
  | rst => exact absurd rfl hrst

/-- In a Faulted block every command but `RDSTAT` and `RST` echoes (R128). -/
theorem exec_echoes (hf : s.fault ≠ 0#8) (hstat : i ≠ .rdstat) (hrst : i ≠ .rst) :
    exec i s = .next (echoFault s) := by
  obtain ⟨effect, data, hexec, -, -⟩ := exec_eq_answer (s := s) hstat hrst
  exact hexec.trans (answer_faulted hf)

/-- A command whose check fails raises that check's fault and does nothing else (R123, R127). -/
theorem exec_raises {e : FaultKind} (hf : s.fault = 0#8) (hc : commandCheck i s = some e) :
    exec i s = .next { s with
      fault := faultCode e, responses := s.responses ++ [faultCode e ++ 0#32] } := by
  have hstat : i ≠ .rdstat := by rintro rfl; nomatch hc
  have hrst : i ≠ .rst := by rintro rfl; nomatch hc
  obtain ⟨effect, data, hexec, -, -⟩ := exec_eq_answer (s := s) hstat hrst
  exact hexec.trans (answer_raises hf hc)

/-- A command that no check stops answers `OK` and leaves `FAULT` 0 (R127 step 7). -/
theorem exec_executes (hf : s.fault = 0#8) (hc : commandCheck i s = none) :
    ∃ (t : State) (d : Word), exec i s = .next t ∧ t.fault = 0#8 ∧
      t.responses = s.responses ++ [0#8 ++ d] := by
  by_cases hstat : i = .rdstat
  · subst hstat
    exact ⟨_, _, exec_rdstat s, hf, rfl⟩
  by_cases hrst : i = .rst
  · subst hrst
    exact ⟨_, _, exec_rst s, rfl, rfl⟩
  obtain ⟨effect, data, hexec, hfault, hresponses⟩ := exec_eq_answer (s := s) hstat hrst
  exact ⟨_, data s, hexec.trans (answer_executes hf hc), hfault.trans hf,
    congrArg (· ++ [0#8 ++ data s]) hresponses⟩

/-- A configuration command finds the configuration locked before anything else (R125). -/
theorem commandCheck_configLocked (hi : isConfig i = true) (htv : s.tv = true) :
    commandCheck i s = some .configLocked := by
  cases i with
  | setpoly _ | setwidth _ | setinit _ | preset _ => exact lockedCheck_some.mpr ⟨htv, rfl⟩
  | gen => exact generateCheck_some.mpr (.inl ⟨htv, rfl⟩)
  | ldinit | seed _ | byte _ | rdcrc | rdtbl _ | rdpoly | rdwidth | rdinit | rdstat | rst =>
    nomatch hi

/-- A command that needs the table finds it missing before anything else (R122). -/
theorem commandCheck_tableNotValid (hi : needsTable i = true) (htv : s.tv = false) :
    commandCheck i s = some .tableNotValid := by
  cases i with
  | ldinit | seed _ | rdtbl _ => exact tableCheck_some.mpr ⟨htv, rfl⟩
  | byte _ | rdcrc => exact seededCheck_some.mpr (.inl ⟨htv, rfl⟩)
  | setpoly _ | setwidth _ | setinit _ | gen | preset _ | rdpoly | rdwidth | rdinit | rdstat
  | rst => nomatch hi

/-- With a valid table, a command that needs the register seeded finds it is not (R126). -/
theorem commandCheck_notSeeded (hi : needsSeed i = true) (htv : s.tv = true)
    (hrv : s.rv = false) : commandCheck i s = some .notSeeded := by
  cases i with
  | byte _ | rdcrc => exact seededCheck_some.mpr (.inr ⟨htv, hrv, rfl⟩)
  | setpoly _ | setwidth _ | setinit _ | gen | preset _ | ldinit | seed _ | rdtbl _ | rdpoly
  | rdwidth | rdinit | rdstat | rst => nomatch hi

/-- While the configuration is open, `GEN` finds a width that is not legal (R121). -/
theorem commandCheck_invalidConfig (htv : s.tv = false) (hw : ¬ LegalWidth s.width.toNat) :
    commandCheck .gen s = some .invalidConfig :=
  generateCheck_some.mpr (.inr ⟨htv, legalWidth_eq_false hw, rfl⟩)

/-- These four are all the checks there are (R127). -/
theorem commandCheck_none (hlocked : ¬ (isConfig i = true ∧ s.tv = true))
    (htable : ¬ (needsTable i = true ∧ s.tv = false))
    (hseed : ¬ (needsSeed i = true ∧ s.rv = false))
    (hwidth : ¬ (i = .gen ∧ ¬ LegalWidth s.width.toNat)) : commandCheck i s = none := by
  have hopen (hi : isConfig i = true) : s.tv = false := by simpa [hi] using hlocked
  have hvalid (hi : needsTable i = true) : s.tv = true := by simpa [hi] using htable
  have hseeded (hi : needsSeed i = true) : s.rv = true := by simpa [hi] using hseed
  have hlegal (hi : i = .gen) : LegalWidth s.width.toNat := by simpa [hi] using hwidth
  cases i with
  | setpoly _ | setwidth _ | setinit _ | preset _ => exact lockedCheck_none.mpr (hopen rfl)
  | gen => exact generateCheck_none.mpr ⟨hopen rfl, legalWidth_iff.mpr (hlegal rfl)⟩
  | ldinit | seed _ | rdtbl _ => exact tableCheck_none.mpr (hvalid rfl)
  | byte _ | rdcrc => exact seededCheck_none.mpr ⟨hvalid rfl, hseeded rfl⟩
  | rdpoly | rdwidth | rdinit | rdstat | rst => exact noCheck_none (s := s)

end

/-- In a Faulted block every word but `RDSTAT` and `RST`, a command or not, echoes (R128). -/
theorem runWord_echoes {c : CmdWord} {s : State} (hf : s.fault ≠ 0#8)
    (hstat : decode c ≠ .ok .rdstat) (hrst : decode c ≠ .ok .rst) :
    runWord c s = .next (echoFault s) := by
  cases hd : decode c with
  | ok i =>
    rw [runWord_ok hd]
    exact exec_echoes hf (fun hi => hstat (hi ▸ hd)) (fun hi => hrst (hi ▸ hd))
  | error e => rw [runWord_error hd, illegalCommand_eq, if_neg hf]

/-- `fault_o` is the level of `FAULT` not 0 (R130). -/
theorem faultPin_eq_true {s : State} : faultPin s = true ↔ s.fault ≠ 0#8 := bne_iff_ne

/-- `fault_o` is low while `FAULT` is 0 (R130). -/
theorem faultPin_eq_false {s : State} : faultPin s = false ↔ s.fault = 0#8 := bne_eq_false_iff_eq

/-- Settles O26: each premise is a check of the command that fails, and without one of them none
does. -/
theorem checkOrder : Obligations.CheckOrder := by
  intro i s hf
  refine ⟨?_, ?_, ?_, ?_, ?_⟩
  · exact fun hi htv => exec_raises hf (commandCheck_configLocked hi htv)
  · exact fun hi htv => exec_raises hf (commandCheck_tableNotValid hi htv)
  · exact fun hi htv hrv => exec_raises hf (commandCheck_notSeeded hi htv hrv)
  · rintro rfl htv hw
    exact exec_raises hf (commandCheck_invalidConfig htv hw)
  · exact fun hlocked htable hseed hwidth =>
      exec_executes hf (commandCheck_none hlocked htable hseed hwidth)

/-- Settles O27: the step takes the word, and the word echoes. -/
theorem faultedEchoes : Obligations.FaultedEchoes := by
  intro s c rest hready hin hf hstat hrst
  rw [step_of_inputs hin, portEvent_ready (s := setInputs rest s) hready,
    runWord_echoes (s := setInputs rest s) hf hstat hrst]
  rfl

/-- Settles O32: `fault_o` follows `FAULT`, which a step without a reset keeps while it is not 0
(`firstFaultKept`) and makes not 0 only by fault entry (`faultIsPrecise`). -/
theorem faultPinLevel : Obligations.FaultPinLevel := by
  refine ⟨fun s => ?_, fun s t h hhigh hlow => ?_, fun s t h hlow hhigh => ?_⟩
  · rw [faultPin_eq_true]
    exact ⟨lifecycle_of_fault_ne_zero, fun hs hf => lifecycle_ne_faulted hf hs⟩
  · by_contra hr
    have hkept := firstFaultKept s t (faultPin_eq_true.mp hhigh) h hr
    have hfault : t.fault = s.fault := congrArg (·.fault) hkept
    exact faultPin_eq_true.mp hhigh (hfault.symm.trans (faultPin_eq_false.mp hlow))
  · obtain ⟨-, c, rest, hin, hentry⟩ :=
      faultIsPrecise s t (faultPin_eq_false.mp hlow) h (faultPin_eq_true.mp hhigh)
    exact ⟨c, rest, hin, congrArg State.responses hentry⟩

end Sys2Proof.Machine

/-! ## The step and the reset pin

What one step does with each event of the host: a word that decodes is executed (`step_of_nextIs`), a
word presented in reset is dropped, the pin's fall resets the block and its rise releases it. -/

namespace Sys2Proof.Machine

/-- Placing a 40-bit word presents it as a command word; the cut to 40 bits loses nothing. -/
theorem withFetchWord_eq_present (s : State) (w : Nat) :
    s.withFetchWord 40 w = present (BitVec.ofNat 40 w) s :=
  congrArg (present · s) (BitVec.eq_of_toNat_eq (by simp))

/-- A presented word that decodes is the command the next step executes. -/
theorem nextIs_present {c : CmdWord} {i : Instr} (hd : decode c = .ok i) (s : State) :
    nextIs (present c s) i :=
  ⟨present_inReset s c, c, s.inputs, present_inputs s c, hd⟩

/-- Taking the presented word off again leaves the block out of reset and changes nothing else. -/
theorem setInputs_tail_present (c : CmdWord) (s : State) :
    setInputs (present c s).inputs.tail (present c s) = holdReset false s := rfl

/-- `cmd_ready` is 0 exactly while the block is held in reset (R140). -/
theorem cmdReady_eq_false {s : State} : cmdReady s = false ↔ s.inReset = true := by
  simp [cmdReady]

/-- The pin's fall leaves what R24 gives, with the block held. -/
theorem holdReset_enterReset_agree (s : State) :
    (holdReset true (enterReset s)).Agree { State.reset with
      inReset := true, inputs := s.inputs, responses := s.responses } :=
  { enterReset_agree s with inReset := rfl }

/-- Settles O8: the word at the head is the next command, and its step is its execution. -/
theorem stepRunsDecodedInstruction : Obligations.StepRunsDecodedInstruction := by
  intro s c rest i hready hin hd
  rw [step_of_nextIs ⟨hready, c, rest, hin, hd⟩, hin]
  rfl

/-- Settles O9: the placed word is the next command, to a block out of reset. -/
theorem placedWordRunsNext : Obligations.PlacedWordRunsNext := by
  intro s w i _ hd
  rw [withFetchWord_eq_present, step_of_nextIs (nextIs_present hd s), setInputs_tail_present]
  rfl

/-- Settles O10, by the rule for an idle step. -/
theorem idleHoldsState : Obligations.IdleHoldsState := fun _ hin => step_idle hin

/-- Settles O44: the pin's fall acts by `enterReset` whatever is in flight, and answers nothing. -/
theorem hardResetAbandonsCommand : Obligations.HardResetAbandonsCommand := by
  intro s inFlight rest hin
  refine ⟨holdReset true (enterReset (setInputs rest s)), ?_, ?_, ?_,
    holdReset_enterReset_agree (setInputs rest s)⟩
  · rw [step_of_inputs hin, portEvent_resetLow]
  · exact cmdReady_eq_false.mpr (holdReset_inReset _ true)
  · exact faultPin_eq_false.mpr (enterReset_fault (setInputs rest s))

/-- Settles O45: a held block drops the word, and the pin's rise only releases the block. -/
theorem nothingIssuedInReset : Obligations.NothingIssuedInReset := by
  refine ⟨fun s c rest hheld hin => ⟨cmdReady_eq_false.mpr hheld, ?_⟩, fun s rest hin => ?_⟩
  · rw [step_of_inputs hin, portEvent_held (s := setInputs rest s) hheld]
    rfl
  · rw [step_of_inputs hin, portEvent_resetHigh]
    rfl

end Sys2Proof.Machine
